-- ==== Sys2Proof/Word.lean ====
section
/-! DEFINITION. The widths of the machine's values (00_scope.md R8, R11). -/

namespace Sys2Proof

/-- A register, a descriptor word, a DMA word or a system-memory address: 32 bits (R8). -/
abbrev Word := BitVec 32

/-- A byte of system memory, of a frame or of a transport stream. -/
abbrev Byte := BitVec 8

/-- A frame as the frame port carries it: its bytes, first byte on the wire first (R362). -/
abbrev Frame := List Byte

end Sys2Proof
end

