-- ==== Sys2Proof/Config.lean ====
section
/-! DEFINITION. The parameters the model takes (00_scope.md R7, 10_state.md R65) and the free values
that stand for every `draw()` of the spec (R13, R14). A parameter is fixed for the life of the device:
the machine carries it in `State.cfg`, so that a statement holds for every value of it. -/

namespace Sys2Proof

/-- `BACKEND`: the transport variant, FILE = 0, SOCKET = 1 (R7, R350). -/
inductive Backend where
  | file
  | socket
  deriving DecidableEq, Repr

/-- `HOST_ENDIAN`: the byte order of the file record length prefix (R7, R352). -/
inductive HostEndian where
  | little
  | big
  deriving DecidableEq, Repr

/-- `BD_RAM_RESET`: the descriptor RAM after a device reset (R7, R70). -/
inductive BdRamReset where
  | unspecified
  | zero
  deriving DecidableEq, Repr

/-- `TX_IRQ_MASK_POLICY` (R7, R269). -/
inductive IrqMaskPolicy where
  | matching
  | either
  deriving DecidableEq, Repr

/-- The parameters of R7, each under its own name and with R7's default. The parameters R7 calls OPEN
(`base`, `irqLine`, `backend`, `macAddress`, `hostEndian`, `txSinkAvailable`, `rxSourceAvailable`, `rxs`)
carry here the values of the common start state of 95_test_vectors.md, or 0 where that gives none
(DESIGN CHOICE, log 1). -/
structure Config where
  /-- `BASE` -/
  base : Word := 0
  /-- `REGION_SIZE` in bytes -/
  regionSize : Nat := 0x800
  /-- `IRQ_LINE`: the interrupt-controller input that `dev.irq` drives (R406) -/
  irqLine : Nat := 0
  /-- `BACKEND` -/
  backend : Backend := .file
  /-- `MAC_ADDRESS`: bits 47:40 are byte 0, the first byte on the wire (R50, R51) -/
  macAddress : BitVec 48 := 0x001122334455
  /-- `RING_WORDS` -/
  ringWords : Nat := 256
  /-- `BD_BASE` -/
  bdBase : Nat := 0x400
  /-- `WRAP_LIMIT`, by default `RING_WORDS - 2` -/
  wrapLimit : Nat := ringWords - 2
  /-- `MIN_HDR_LEN` -/
  minHdrLen : Nat := 14
  /-- `MAX_FRAME` -/
  maxFrame : Nat := 65535
  /-- `LEN_FIELD_BYTES` -/
  lenFieldBytes : Nat := 4
  /-- `HOST_ENDIAN` -/
  hostEndian : HostEndian := .little
  /-- `BD_RAM_RESET` -/
  bdRamReset : BdRamReset := .unspecified
  /-- `REENABLE_RESETS_INDEX` -/
  reenableResetsIndex : Bool := false
  /-- `READFIFO_EXTRA_TICK` -/
  readFifoExtraTick : Bool := false
  /-- `TX_IRQ_MASK_POLICY` -/
  txIrqMaskPolicy : IrqMaskPolicy := .matching
  /-- `TX_SINK_AVAILABLE` -/
  txSinkAvailable : Bool := true
  /-- `RX_SOURCE_AVAILABLE` -/
  rxSourceAvailable : Bool := true
  /-- `RXS`: the content of the file backend's RX source -/
  rxs : List Byte := []
  /-- `SOCKET_SETUP_FATAL` -/
  socketSetupFatal : Bool := false
  /-- The system-memory ranges (first address, length) that the memory does not admit (20_memory.md R111).
  The block fixes none; empty means that all 2^32 bytes of R100 answer. One list serves reads and writes of every
  agent alike (DESIGN CHOICE, log 5). -/
  memHoles : List (Nat × Nat) := []
  deriving DecidableEq, Repr

/-- Every parameter at its default of R7. -/
def Config.standard : Config := {}

/-- `draw()` of 32 bits. First argument: the draw counter `State.draws`. Second: which of one step's draws. -/
opaque Config.freeWord : Nat → Nat → Word

/-- `draw()` of 8 bits. -/
opaque Config.freeByte : Nat → Nat → Byte

/-- `draw()` of one bit. -/
opaque Config.freeBit : Nat → Nat → Bool

/-- Byte `i` (second argument) of the record length prefix of a length (first argument) that does not fit the prefix:
R352 does not define it (DESIGN CHOICE, log 21). -/
opaque Config.freeLenByte : Nat → Nat → Byte

end Sys2Proof
end

