-- ==== Sys2Proof/Syntax.lean ====
section
/-! DEFINITION. The operations of the block: one constructor per row of spec/opcode_table.json
(30_encoding.md R151). `v` is a write's 32-bit data value, `i` a descriptor word index, `off` the byte
offset of an access that decodes to nothing. -/

namespace Sys2Proof

/-- One bus access to the register window, or one step of one engine. -/
inductive Instr where
  /-- `RD_MODER` (R184) -/
  | rdModer
  /-- `WR_MODER` (R185) -/
  | wrModer (v : Word)
  /-- `RD_INT_SOURCE` (R187) -/
  | rdIntSource
  /-- `WR_INT_SOURCE` (R188) -/
  | wrIntSource (v : Word)
  /-- `RD_INT_MASK` (R189) -/
  | rdIntMask
  /-- `WR_INT_MASK` (R190) -/
  | wrIntMask (v : Word)
  /-- `RD_IPGT` (R191) -/
  | rdIpgt
  /-- `WR_IPGT` (R192) -/
  | wrIpgt (v : Word)
  /-- `RD_IPGR1` (R193) -/
  | rdIpgr1
  /-- `WR_IPGR1` (R194) -/
  | wrIpgr1 (v : Word)
  /-- `RD_IPGR2` (R195) -/
  | rdIpgr2
  /-- `WR_IPGR2` (R196) -/
  | wrIpgr2 (v : Word)
  /-- `RD_PACKETLEN` (R197) -/
  | rdPacketLen
  /-- `WR_PACKETLEN` (R198) -/
  | wrPacketLen (v : Word)
  /-- `RD_COLLCONF` (R199) -/
  | rdCollConf
  /-- `WR_COLLCONF` (R200) -/
  | wrCollConf (v : Word)
  /-- `RD_TX_BD_NUM` (R201) -/
  | rdTxBdNum
  /-- `WR_TX_BD_NUM` (R202) -/
  | wrTxBdNum (v : Word)
  /-- `RD_CTRLMODER` (R203) -/
  | rdCtrlModer
  /-- `WR_CTRLMODER` (R204) -/
  | wrCtrlModer (v : Word)
  /-- `RD_MIIMODER` (R205) -/
  | rdMiiModer
  /-- `WR_MIIMODER` (R206) -/
  | wrMiiModer (v : Word)
  /-- `RD_MIICOMMAND` (R207) -/
  | rdMiiCommand
  /-- `WR_MIICOMMAND` (R208) -/
  | wrMiiCommand (v : Word)
  /-- `RD_MIIADDRESS` (R209) -/
  | rdMiiAddress
  /-- `WR_MIIADDRESS` (R210) -/
  | wrMiiAddress (v : Word)
  /-- `RD_MIITX_DATA` (R211) -/
  | rdMiiTxData
  /-- `WR_MIITX_DATA` (R212) -/
  | wrMiiTxData (v : Word)
  /-- `RD_MIIRX_DATA` (R213) -/
  | rdMiiRxData
  /-- `WR_MIIRX_DATA` (R214) -/
  | wrMiiRxData (v : Word)
  /-- `RD_MIISTATUS` (R215) -/
  | rdMiiStatus
  /-- `WR_MIISTATUS` (R216) -/
  | wrMiiStatus (v : Word)
  /-- `RD_MAC_ADDR0` (R217) -/
  | rdMacAddr0
  /-- `WR_MAC_ADDR0` (R218) -/
  | wrMacAddr0 (v : Word)
  /-- `RD_MAC_ADDR1` (R219) -/
  | rdMacAddr1
  /-- `WR_MAC_ADDR1` (R220) -/
  | wrMacAddr1 (v : Word)
  /-- `RD_HASH0` (R221) -/
  | rdHash0
  /-- `WR_HASH0` (R222) -/
  | wrHash0 (v : Word)
  /-- `RD_HASH1` (R223) -/
  | rdHash1
  /-- `WR_HASH1` (R224) -/
  | wrHash1 (v : Word)
  /-- `RD_BD` (R225) -/
  | rdBd (i : Nat)
  /-- `WR_BD` (R226) -/
  | wrBd (i : Nat) (v : Word)
  /-- `RD_UNMAPPED` (R182) -/
  | rdUnmapped (off : BitVec 16)
  /-- `WR_UNMAPPED` (R183) -/
  | wrUnmapped (off : BitVec 16) (v : Word)
  /-- `TX_IDLE` (R261) -/
  | txIdle
  /-- `TX_WAIT_BD` (R262) -/
  | txWaitBd
  /-- `TX_READ_FIFO` (R266) -/
  | txReadFifo
  /-- `TX_TRANSMIT` (R267) -/
  | txTransmit
  /-- `RX_IDLE` (R301) -/
  | rxIdle
  /-- `RX_WAIT_BD` (R302) -/
  | rxWaitBd
  /-- `RX_RECV_FILE` (R306) -/
  | rxRecvFile
  /-- `RX_RECV_SOCKET` (R307) -/
  | rxRecvSocket
  /-- `RX_WRITE_FIFO` (R308) -/
  | rxWriteFifo
  deriving DecidableEq, Repr

end Sys2Proof
end

