-- ==== Sys2Proof/WellFormed.lean ====
section
/-! DEFINITION. Which parameter choices the encodings fit, and which operand values an operation can
carry (30_encoding.md R141, R143; 20_memory.md R108). -/

namespace Sys2Proof

/-- The geometry the access code has room for: descriptor words sit at 4-aligned offsets above the
twenty registers, inside the device window, and every offset fits the 16-bit `off` field (R108, R141). -/
def Config.wf (cfg : Config) : Bool :=
  cfg.bdBase % 4 == 0 && decide (0x50 ≤ cfg.bdBase) &&
  decide (cfg.bdBase + 4 * cfg.ringWords ≤ cfg.regionSize) && decide (cfg.regionSize ≤ 0x10000)

/-- `BD_BASE <= off <= BD_BASE + 4 * RING_WORDS - 4`: case 3 of R143, alignment and register offsets aside. -/
def Config.inBdWindow (cfg : Config) (off : Nat) : Bool :=
  decide (cfg.bdBase ≤ off) && decide (off + 4 ≤ cfg.bdBase + 4 * cfg.ringWords)

/-- The offset decodes to nothing: cases 1 and 4 of R143. -/
def Config.unmapped (cfg : Config) (off : Nat) : Bool :=
  off % 4 != 0 || (decide (0x50 ≤ off) && !cfg.inBdWindow off)

/-- The operands an operation can carry: a descriptor index is inside the descriptor RAM (R225, R226), the
offset of an unmapped access decodes to nothing (R182, R183), and a RECV step is the one of the device's
own transport variant (R306, R307). -/
def Instr.wellFormed (cfg : Config) : Instr → Bool
  | .rdBd i | .wrBd i _ => decide (i < cfg.ringWords)
  | .rdUnmapped off | .wrUnmapped off _ => cfg.unmapped off.toNat
  | .rxRecvFile => cfg.backend == .file
  | .rxRecvSocket => cfg.backend == .socket
  | .rdModer | .rdIntSource | .rdIntMask | .rdIpgt | .rdIpgr1 | .rdIpgr2 | .rdPacketLen | .rdCollConf
  | .rdTxBdNum | .rdCtrlModer | .rdMiiModer | .rdMiiCommand | .rdMiiAddress | .rdMiiTxData | .rdMiiRxData
  | .rdMiiStatus | .rdMacAddr0 | .rdMacAddr1 | .rdHash0 | .rdHash1 => true
  | .wrModer _ | .wrIntSource _ | .wrIntMask _ | .wrIpgt _ | .wrIpgr1 _ | .wrIpgr2 _ | .wrPacketLen _
  | .wrCollConf _ | .wrTxBdNum _ | .wrCtrlModer _ | .wrMiiModer _ | .wrMiiCommand _ | .wrMiiAddress _
  | .wrMiiTxData _ | .wrMiiRxData _ | .wrMiiStatus _ | .wrMacAddr0 _ | .wrMacAddr1 _ | .wrHash0 _
  | .wrHash1 _ => true
  | .txIdle | .txWaitBd | .txReadFifo | .txTransmit | .rxIdle | .rxWaitBd | .rxWriteFifo => true

end Sys2Proof
end

