-- ==== Sys2Proof/Decode.lean ====
section
/-! DEFINITION. Decoding and encoding (30_encoding.md R140 to R143, R151). The block has no instruction
words: what is decoded is the access code of a bus access, or the 2-bit state code of an engine's step. -/

namespace Sys2Proof

/-- The three formats of R140. -/
inductive Format where
  | mmio
  | txStep
  | rxStep
  deriving DecidableEq, Repr

/-- One coded operation: a bus access of R141 (`we` = 0 or 1, with the 16-bit offset and, for a write, the
data value beside it), or a state code of R142. -/
inductive Code where
  | read (off : BitVec 16)
  | write (off : BitVec 16) (v : Word)
  | tx (st : BitVec 2)
  | rx (st : BitVec 2)
  deriving DecidableEq, Repr

/-- Why a number is the code of nothing. -/
inductive Reject where
  /-- a bit above the 17 bits of an access code is set (above its data value too, for a write) -/
  | bitsAboveAccessCode
  /-- a bit above the 2 bits of a state code is set -/
  | bitsAboveStateCode
  deriving DecidableEq, Repr

/-- The code a number stands for in a format. MMIO: bits 16:0 are the access code `we, off` of R141; a
write's data value stands in bits 55:24, the layout the model chose (log 10). TXSTEP and RXSTEP: bits 1:0
are the state code of R142. -/
def Code.ofWord (f : Format) (w : Nat) : Except Reject Code :=
  match f with
  | .mmio =>
    if w / 2 ^ 16 % 2 = 0 then
      if w < 2 ^ 17 then .ok (.read (BitVec.ofNat 16 w)) else .error .bitsAboveAccessCode
    else if w / 2 ^ 17 % 2 ^ 7 = 0 ∧ w < 2 ^ 56 then
      .ok (.write (BitVec.ofNat 16 w) (BitVec.ofNat 32 (w / 2 ^ 24)))
    else .error .bitsAboveAccessCode
  | .txStep => if w < 4 then .ok (.tx (BitVec.ofNat 2 w)) else .error .bitsAboveStateCode
  | .rxStep => if w < 4 then .ok (.rx (BitVec.ofNat 2 w)) else .error .bitsAboveStateCode

/-- The word index of a descriptor-window offset: `(off - BD_BASE) >> 2` (R143). -/
def Config.bdIndexOf (cfg : Config) (off : Nat) : Nat := (off - cfg.bdBase) / 4

/-- The read an offset names, in R143's order of priority. -/
def decodeRead (cfg : Config) (off : BitVec 16) : Instr :=
  match off.toNat with
  | 0x00 => .rdModer
  | 0x04 => .rdIntSource
  | 0x08 => .rdIntMask
  | 0x0C => .rdIpgt
  | 0x10 => .rdIpgr1
  | 0x14 => .rdIpgr2
  | 0x18 => .rdPacketLen
  | 0x1C => .rdCollConf
  | 0x20 => .rdTxBdNum
  | 0x24 => .rdCtrlModer
  | 0x28 => .rdMiiModer
  | 0x2C => .rdMiiCommand
  | 0x30 => .rdMiiAddress
  | 0x34 => .rdMiiTxData
  | 0x38 => .rdMiiRxData
  | 0x3C => .rdMiiStatus
  | 0x40 => .rdMacAddr0
  | 0x44 => .rdMacAddr1
  | 0x48 => .rdHash0
  | 0x4C => .rdHash1
  | n =>
    if n % 4 = 0 ∧ cfg.inBdWindow n = true then .rdBd (cfg.bdIndexOf n) else .rdUnmapped off

/-- The write an offset names, in R143's order of priority. -/
def decodeWrite (cfg : Config) (off : BitVec 16) (v : Word) : Instr :=
  match off.toNat with
  | 0x00 => .wrModer v
  | 0x04 => .wrIntSource v
  | 0x08 => .wrIntMask v
  | 0x0C => .wrIpgt v
  | 0x10 => .wrIpgr1 v
  | 0x14 => .wrIpgr2 v
  | 0x18 => .wrPacketLen v
  | 0x1C => .wrCollConf v
  | 0x20 => .wrTxBdNum v
  | 0x24 => .wrCtrlModer v
  | 0x28 => .wrMiiModer v
  | 0x2C => .wrMiiCommand v
  | 0x30 => .wrMiiAddress v
  | 0x34 => .wrMiiTxData v
  | 0x38 => .wrMiiRxData v
  | 0x3C => .wrMiiStatus v
  | 0x40 => .wrMacAddr0 v
  | 0x44 => .wrMacAddr1 v
  | 0x48 => .wrHash0 v
  | 0x4C => .wrHash1 v
  | n =>
    if n % 4 = 0 ∧ cfg.inBdWindow n = true then .wrBd (cfg.bdIndexOf n) v else .wrUnmapped off v

/-- The TX step of a state code (R142). -/
def decodeTx (st : BitVec 2) : Instr :=
  if st = 0b00 then .txIdle
  else if st = 0b01 then .txWaitBd
  else if st = 0b10 then .txReadFifo
  else .txTransmit

/-- The RX step of a state code; RECV is the step of the device's transport variant (R142, R300). -/
def decodeRx (b : Backend) (st : BitVec 2) : Instr :=
  if st = 0b00 then .rxIdle
  else if st = 0b01 then .rxWaitBd
  else if st = 0b10 then
    match b with
    | .file => .rxRecvFile
    | .socket => .rxRecvSocket
  else .rxWriteFifo

/-- The operation of a code. Every code has one (R145, R147): an access that names no register and no
descriptor word is the unmapped access. -/
def decodeCode (cfg : Config) : Code → Instr
  | .read off => decodeRead cfg off
  | .write off v => decodeWrite cfg off v
  | .tx st => decodeTx st
  | .rx st => decodeRx cfg.backend st

/-- The operation of a number read in a format, or the reason it is none. -/
def decode (cfg : Config) (f : Format) (w : Nat) : Except Reject Instr :=
  match Code.ofWord f w with
  | .ok c => .ok (decodeCode cfg c)
  | .error r => .error r

/-- The window offset of descriptor word `i`: `BD_BASE + 4 * i` (R54). -/
def Config.bdOffset (cfg : Config) (i : Nat) : BitVec 16 := BitVec.ofNat 16 (cfg.bdBase + 4 * i)

/-- The code of an operation, from the operation map of R151. -/
def encodeCode (cfg : Config) : Instr → Code
  | .rdModer => .read 0x00
  | .rdIntSource => .read 0x04
  | .rdIntMask => .read 0x08
  | .rdIpgt => .read 0x0C
  | .rdIpgr1 => .read 0x10
  | .rdIpgr2 => .read 0x14
  | .rdPacketLen => .read 0x18
  | .rdCollConf => .read 0x1C
  | .rdTxBdNum => .read 0x20
  | .rdCtrlModer => .read 0x24
  | .rdMiiModer => .read 0x28
  | .rdMiiCommand => .read 0x2C
  | .rdMiiAddress => .read 0x30
  | .rdMiiTxData => .read 0x34
  | .rdMiiRxData => .read 0x38
  | .rdMiiStatus => .read 0x3C
  | .rdMacAddr0 => .read 0x40
  | .rdMacAddr1 => .read 0x44
  | .rdHash0 => .read 0x48
  | .rdHash1 => .read 0x4C
  | .rdBd i => .read (cfg.bdOffset i)
  | .rdUnmapped off => .read off
  | .wrModer v => .write 0x00 v
  | .wrIntSource v => .write 0x04 v
  | .wrIntMask v => .write 0x08 v
  | .wrIpgt v => .write 0x0C v
  | .wrIpgr1 v => .write 0x10 v
  | .wrIpgr2 v => .write 0x14 v
  | .wrPacketLen v => .write 0x18 v
  | .wrCollConf v => .write 0x1C v
  | .wrTxBdNum v => .write 0x20 v
  | .wrCtrlModer v => .write 0x24 v
  | .wrMiiModer v => .write 0x28 v
  | .wrMiiCommand v => .write 0x2C v
  | .wrMiiAddress v => .write 0x30 v
  | .wrMiiTxData v => .write 0x34 v
  | .wrMiiRxData v => .write 0x38 v
  | .wrMiiStatus v => .write 0x3C v
  | .wrMacAddr0 v => .write 0x40 v
  | .wrMacAddr1 v => .write 0x44 v
  | .wrHash0 v => .write 0x48 v
  | .wrHash1 v => .write 0x4C v
  | .wrBd i v => .write (cfg.bdOffset i) v
  | .wrUnmapped off v => .write off v
  | .txIdle => .tx 0b00
  | .txWaitBd => .tx 0b01
  | .txReadFifo => .tx 0b10
  | .txTransmit => .tx 0b11
  | .rxIdle => .rx 0b00
  | .rxWaitBd => .rx 0b01
  | .rxRecvFile => .rx 0b10
  | .rxRecvSocket => .rx 0b10
  | .rxWriteFifo => .rx 0b11

/-- The format a code belongs to. -/
def Code.format : Code → Format
  | .read _ | .write _ _ => .mmio
  | .tx _ => .txStep
  | .rx _ => .rxStep

/-- The number of a code, in the layout `Code.ofWord` reads. -/
def Code.toWord : Code → Nat
  | .read off => off.toNat
  | .write off v => v.toNat * 2 ^ 24 + 2 ^ 16 + off.toNat
  | .tx st => st.toNat
  | .rx st => st.toNat

/-- The number of an operation, to be read in the format `encodeFormat` gives. -/
def encode (cfg : Config) (i : Instr) : Nat := (encodeCode cfg i).toWord

/-- The format an operation is coded in. -/
def encodeFormat (cfg : Config) (i : Instr) : Format := (encodeCode cfg i).format

/-- The operation of a word of spec/opcode_table.json, under the default parameters. A row of at most 8
bits is a state code, a longer one an access code with a data value of zero. The table gives TXSTEP and
RXSTEP rows the same 2-bit codes and this function is told no format: it reads a state code as a TX step
(log 10). -/
def decodeTableWord (nbits w : Nat) : Option Instr :=
  match decode Config.standard (if nbits ≤ 8 then .txStep else .mmio) w with
  | .ok i => some i
  | .error _ => none

end Sys2Proof
end

