-- ==== Sys2Proof/Machine/Registers.lean ====
section
/-! DEFINITION. The register file (10_state.md R32 to R53): twenty 32-bit registers, each with one home,
read and written through `RegFile.get` and `RegFile.set`. -/

namespace Sys2Proof.Machine

/-- The names of the twenty registers (R32). -/
inductive Reg where
  | moder
  | intSource
  | intMask
  | ipgt
  | ipgr1
  | ipgr2
  | packetLen
  | collConf
  | txBdNum
  | ctrlModer
  | miiModer
  | miiCommand
  | miiAddress
  | miiTxData
  | miiRxData
  | miiStatus
  | macAddr0
  | macAddr1
  | hash0
  | hash1
  deriving DecidableEq, Repr

/-- The register file (R32). Every register stores all 32 bits (R33). -/
structure RegFile where
  /-- MODER, offset 0x00 (R34) -/
  moder : Word
  /-- INT_SOURCE, offset 0x04 (R35) -/
  intSource : Word
  /-- INT_MASK, offset 0x08 (R36) -/
  intMask : Word
  /-- IPGT, offset 0x0C (R37) -/
  ipgt : Word
  /-- IPGR1, offset 0x10 (R38) -/
  ipgr1 : Word
  /-- IPGR2, offset 0x14 (R39) -/
  ipgr2 : Word
  /-- PACKETLEN, offset 0x18 (R40) -/
  packetLen : Word
  /-- COLLCONF, offset 0x1C (R41) -/
  collConf : Word
  /-- TX_BD_NUM, offset 0x20 (R42) -/
  txBdNum : Word
  /-- CTRLMODER, offset 0x24 (R43) -/
  ctrlModer : Word
  /-- MIIMODER, offset 0x28 (R44) -/
  miiModer : Word
  /-- MIICOMMAND, offset 0x2C (R45) -/
  miiCommand : Word
  /-- MIIADDRESS, offset 0x30 (R46) -/
  miiAddress : Word
  /-- MIITX_DATA, offset 0x34 (R47) -/
  miiTxData : Word
  /-- MIIRX_DATA, offset 0x38 (R48) -/
  miiRxData : Word
  /-- MIISTATUS, offset 0x3C (R49) -/
  miiStatus : Word
  /-- MAC_ADDR0, offset 0x40 (R50) -/
  macAddr0 : Word
  /-- MAC_ADDR1, offset 0x44 (R51) -/
  macAddr1 : Word
  /-- HASH0, offset 0x48 (R52) -/
  hash0 : Word
  /-- HASH1, offset 0x4C (R53) -/
  hash1 : Word
  deriving DecidableEq, Repr

/-- The stored value of a register. -/
def RegFile.get (f : RegFile) : Reg → Word
  | .moder => f.moder
  | .intSource => f.intSource
  | .intMask => f.intMask
  | .ipgt => f.ipgt
  | .ipgr1 => f.ipgr1
  | .ipgr2 => f.ipgr2
  | .packetLen => f.packetLen
  | .collConf => f.collConf
  | .txBdNum => f.txBdNum
  | .ctrlModer => f.ctrlModer
  | .miiModer => f.miiModer
  | .miiCommand => f.miiCommand
  | .miiAddress => f.miiAddress
  | .miiTxData => f.miiTxData
  | .miiRxData => f.miiRxData
  | .miiStatus => f.miiStatus
  | .macAddr0 => f.macAddr0
  | .macAddr1 => f.macAddr1
  | .hash0 => f.hash0
  | .hash1 => f.hash1

/-- The register file with all 32 bits of one register replaced (R33). -/
def RegFile.set (f : RegFile) (r : Reg) (v : Word) : RegFile :=
  match r with
  | .moder => { f with moder := v }
  | .intSource => { f with intSource := v }
  | .intMask => { f with intMask := v }
  | .ipgt => { f with ipgt := v }
  | .ipgr1 => { f with ipgr1 := v }
  | .ipgr2 => { f with ipgr2 := v }
  | .packetLen => { f with packetLen := v }
  | .collConf => { f with collConf := v }
  | .txBdNum => { f with txBdNum := v }
  | .ctrlModer => { f with ctrlModer := v }
  | .miiModer => { f with miiModer := v }
  | .miiCommand => { f with miiCommand := v }
  | .miiAddress => { f with miiAddress := v }
  | .miiTxData => { f with miiTxData := v }
  | .miiRxData => { f with miiRxData := v }
  | .miiStatus => { f with miiStatus := v }
  | .macAddr0 => { f with macAddr0 := v }
  | .macAddr1 => { f with macAddr1 := v }
  | .hash0 => { f with hash0 := v }
  | .hash1 => { f with hash1 := v }

/-- The register file after a device reset: R32's reset values, the two station-address registers kept
(R69, R440). -/
def RegFile.afterReset (f : RegFile) : RegFile where
  moder := 0x0000A000
  intSource := 0
  intMask := 0
  ipgt := 0x12
  ipgr1 := 0x0C
  ipgr2 := 0x12
  packetLen := 0x003C0600
  collConf := 0x000F003F
  txBdNum := 0x40
  ctrlModer := 0
  miiModer := 0x64
  miiCommand := 0
  miiAddress := 0
  miiTxData := 0
  miiRxData := 0
  miiStatus := 0
  macAddr0 := f.macAddr0
  macAddr1 := f.macAddr1
  hash0 := 0
  hash1 := 0

/-- MAC_ADDR0 at construction: bytes 2 to 5 of `MAC_ADDRESS` (R50, R441). -/
def macAddr0AtConstruction (cfg : Config) : Word := cfg.macAddress.extractLsb' 0 32

/-- MAC_ADDR1 at construction: `{0x0000, byte 0, byte 1}` of `MAC_ADDRESS` (R51, R441). -/
def macAddr1AtConstruction (cfg : Config) : Word := (cfg.macAddress.extractLsb' 32 16).setWidth 32

/-- The register file of a device just constructed: the station address loaded, then the device reset (R441). -/
def RegFile.constructed (cfg : Config) : RegFile :=
  RegFile.afterReset
    { moder := 0, intSource := 0, intMask := 0, ipgt := 0, ipgr1 := 0, ipgr2 := 0, packetLen := 0, collConf := 0,
      txBdNum := 0, ctrlModer := 0, miiModer := 0, miiCommand := 0, miiAddress := 0, miiTxData := 0,
      miiRxData := 0, miiStatus := 0, macAddr0 := macAddr0AtConstruction cfg,
      macAddr1 := macAddr1AtConstruction cfg, hash0 := 0, hash1 := 0 }

end Sys2Proof.Machine
end

