-- ==== Sys2Proof/Machine/Working.lean ====
section
/-! DEFINITION. The working state of the two engines (10_state.md R60, R61) and what a device reset makes
of it and of the descriptor RAM (R70 to R72). -/

namespace Sys2Proof.Machine

/-- `tx.state` (R60, R142). -/
inductive TxState where
  | idle
  | waitBd
  | readFifo
  | transmit
  deriving DecidableEq, Repr

/-- `rx.state` (R61, R142). -/
inductive RxState where
  | idle
  | waitBd
  | recv
  | writeFifo
  deriving DecidableEq, Repr

/-- `rx.src` (R61, R354). -/
inductive RxSource where
  | rxFile
  | loopback
  deriving DecidableEq, Repr

/-- The transmit working state (R60). -/
structure TxWork where
  /-- `tx.state` -/
  state : TxState
  /-- `tx.idx`: ring pointer, word index of word 0 of the current descriptor -/
  idx : Word
  /-- `tx.bd`: snapshot of word 0 -/
  bd : Word
  /-- `tx.buf`: snapshot of word 1, the buffer address -/
  buf : Word
  /-- `tx.len` -/
  len : BitVec 16
  /-- `tx.sent`: bytes staged so far -/
  sent : Nat
  /-- `tx.left`: bytes not yet staged -/
  left : Nat
  /-- `tx.min_len` -/
  minLen : BitVec 16
  /-- `tx.max_len`; `none` is UNBOUNDED (R264) -/
  maxLen : Option (BitVec 16)
  /-- `tx.need_crc` -/
  needCrc : Bool
  /-- `tx.dly_crc` -/
  dlyCrc : Bool
  /-- `tx.fifo`: element `k` of the list is byte `k`; a byte beyond the list is unspecified (R71, log 12) -/
  fifo : List Byte
  deriving DecidableEq, Repr

/-- The receive working state (R61). -/
structure RxWork where
  /-- `rx.state` -/
  state : RxState
  /-- `rx.idx`: ring pointer (word index) -/
  idx : Word
  /-- `rx.bd`: snapshot of word 0 -/
  bd : Word
  /-- `rx.buf`: snapshot of word 1 -/
  buf : Word
  /-- `rx.len`: length of the frame being written -/
  len : Nat
  /-- `rx.done`: bytes written to memory so far -/
  done : Nat
  /-- `rx.src`: the source chosen in WAIT_BD -/
  src : RxSource
  /-- `rx.error`: receive-error latch, not visible to software -/
  error : Bool
  /-- `rx.fifo`: as `TxWork.fifo` -/
  fifo : List Byte
  deriving DecidableEq, Repr

/-- The transmit working state after a device reset (R71). The fields R71 leaves unspecified are draws of
counter `c`, the numbers after `c` telling this reset's draws apart. -/
def TxWork.afterReset (cfg : Config) (c : Nat) : TxWork where
  state := .idle
  idx := 0
  bd := Config.freeWord c cfg.ringWords
  buf := Config.freeWord c (cfg.ringWords + 1)
  len := (Config.freeWord c (cfg.ringWords + 2)).setWidth 16
  sent := 0
  left := 0
  minLen := (Config.freeWord c (cfg.ringWords + 3)).setWidth 16
  maxLen := if Config.freeBit c 0 then none else some ((Config.freeWord c (cfg.ringWords + 4)).setWidth 16)
  needCrc := Config.freeBit c 1
  dlyCrc := Config.freeBit c 2
  fifo := []

/-- The receive working state after a device reset (R72): `rx.idx = 2 * TX_BD_NUM` at the reset value of
TX_BD_NUM, which is 0x80. -/
def RxWork.afterReset (cfg : Config) (c : Nat) : RxWork where
  state := .idle
  idx := 0x80
  bd := Config.freeWord c (cfg.ringWords + 5)
  buf := Config.freeWord c (cfg.ringWords + 6)
  len := 0
  done := 0
  src := if Config.freeBit c 3 then .loopback else .rxFile
  error := false
  fifo := []

/-- The descriptor RAM after a device reset (R70): `RING_WORDS` words, each a draw of counter `c`, or 0. -/
def bdRamAfterReset (cfg : Config) (c : Nat) : List Word :=
  match cfg.bdRamReset with
  | .unspecified => (List.range cfg.ringWords).map (Config.freeWord c)
  | .zero => List.replicate cfg.ringWords 0

end Sys2Proof.Machine
end

