-- ==== Sys2Proof/Machine/State.lean ====
section
/-! DEFINITION. Everything the spec gives the machine, as plain data (10_state.md), the reasons a step
can stop, and the state right after reset. The system memory, the transport and the schedule of the
agents' steps stand in it too, because the engines act on them. -/

namespace Sys2Proof.Machine

/-- Who takes a step (00_scope.md R9). -/
inductive Agent where
  | bus
  | tx
  | rx
  | env
  deriving DecidableEq, Repr

/-- The direction of a bus access (R141, R403). -/
inductive Dir where
  | read
  | write
  deriving DecidableEq, Repr

/-- A fault of R414's table: the reason, the agent whose step raised it and the recorded detail. -/
inductive DevFault where
  /-- a ring pointer at or past `RING_WORDS`; detail: the word index -/
  | bdIndexOutOfRange (agent : Agent) (index : Nat)
  /-- a DMA access at an address that is no multiple of 4; detail: the address -/
  | misalignedBuffer (agent : Agent) (addr : Word)
  /-- a received length above `MAX_FRAME`; detail: the length -/
  | frameTooLarge (agent : Agent) (len : Nat)
  /-- `SOCKET_SETUP_FATAL` at a reset of a SOCKET device -/
  | backendSetupFailed (agent : Agent)
  deriving DecidableEq, Repr

/-- An event of the history (R67, R403). -/
inductive HistEvent where
  /-- an engine read the word `v` of system memory at `a` -/
  | memRead (agent : Agent) (a v : Word)
  /-- an engine wrote the word `v` of system memory at `a` -/
  | memWrite (agent : Agent) (a v : Word)
  /-- the interrupt line was asserted, also while it was asserted already (R406) -/
  | irqAssert
  /-- a frame was handed to the transport (R356, R366) -/
  | frameSent (p : Frame)
  /-- the stop request (R412) -/
  | stopRequest
  /-- a model fault (R414) -/
  | fault (f : DevFault)
  /-- an unmapped bus access was reported (R403) -/
  | illegalAccess (dir : Dir) (off : BitVec 16)
  deriving DecidableEq, Repr

/-- The width of a bus access in bits (R181). -/
inductive AccessWidth where
  | w8
  | w16
  | w32
  deriving DecidableEq, Repr

/-- A bus access as it arrives at the memory-mapped I/O dispatcher (R180, R181). -/
structure BusAccess where
  width : AccessWidth
  dir : Dir
  /-- the bus address -/
  addr : Word
  /-- a write's data value -/
  data : Word
  deriving DecidableEq, Repr

/-- What is to happen next. The order of the agents' steps is open (R112, R463): the schedule is the
model's own field, and every order is some schedule (log 3). -/
inductive Slot where
  /-- a bus access at a bus address (R180) -/
  | bus (acc : BusAccess)
  /-- a 32-bit bus access at the block's register port: `BusRead(off)`, `BusWrite(off, v)` (R10, R141); a read
  carries a `v` that nothing looks at -/
  | port (dir : Dir) (off : BitVec 16) (v : Word)
  /-- a new tick begins, where the current one is over (R463) -/
  | tick
  /-- the TX engine's turn in the current tick -/
  | txTurn
  /-- the RX engine's turn in the current tick -/
  | rxTurn
  /-- a frame arrives at the raw socket (R363) -/
  | arrive (f : Frame)
  /-- another bus master stores bytes in system memory at `a, a + 1, …` (R149 `mem`, R453) -/
  | store (a : Word) (bs : List Byte)
  deriving DecidableEq, Repr

/-- The whole machine. `cfg` is the spec's configuration, carried here so that the model takes it as an
argument (R7, R65); no step changes it. -/
structure State where
  /-- the parameters of R7 -/
  cfg : Config
  /-- the register file (R32) -/
  regs : RegFile
  /-- the descriptor RAM: element `i` is `bd[i]`, and there are `RING_WORDS` of them (R54) -/
  bd : List Word
  /-- `tx.*` (R60) -/
  tx : TxWork
  /-- `rx.*` (R61) -/
  rx : RxWork
  /-- `dev.irq`, the level of the interrupt output (R62) -/
  irq : Bool
  /-- `dev.stop` (R64) -/
  stop : Bool
  /-- `dev.fault`, the first fault (R64, R414) -/
  fault : Option DevFault
  /-- system memory: (address, byte), addresses strictly rising, no entry equal to `memDefault` (R100, log 4) -/
  mem : List Host.Cell
  /-- `dev.txs`: the bytes written to the TX sink since the last reset (R66) -/
  txs : List Byte
  /-- `dev.rx_off`: read cursor into `RXS` (R66) -/
  rxOff : Nat
  /-- `dev.lb_off`: loopback read cursor into `dev.txs` (R66) -/
  lbOff : Nat
  /-- `dev.sockq`: frames received and not yet read, oldest first (R66) -/
  sockq : List Frame
  /-- `dev.wire_out`: frames sent, oldest first (R66) -/
  wireOut : List Frame
  /-- the event history, oldest first (R67) -/
  history : List HistEvent
  /-- the values the block's register port has returned, oldest first (R10, log 9) -/
  busOut : List Word
  /-- the draw counter of the free values (the model's own field, log 2) -/
  draws : Nat
  /-- what is to happen next (the model's own field, log 3) -/
  sched : List Slot
  /-- the TX engine has its step of the current tick still to take (R463, log 3) -/
  txDue : Bool
  /-- the RX engine has its step of the current tick still to take (R463, log 3) -/
  rxDue : Bool
  deriving DecidableEq, Repr

/-- Why the machine stops. -/
inductive Fault where
  /-- Raised by the engines' steps and by a device reset, as R414's table says. Safe: the spec gives the
  faulting step no next state. -/
  | raised (f : DevFault)
  /-- Raised by every step after a stop request (R64, R412: no agent takes a step). Safe. -/
  | stopped
  /-- Raised by every step after a fault was recorded (R64, R414: no agent takes a step). Safe. -/
  | faulted (f : DevFault)
  deriving DecidableEq, Repr

/-- Why an operation has no meaning. -/
inductive Refusal where
  /-- Answered by the dispatcher of the operations for one that has no meaning yet. Safe. -/
  | notModelled (mnemonic : String)
  /-- Answered by the fetch for a bus access that is not 32 bits wide (R181: `Refuse(AccessWidth)`). Safe. -/
  | accessWidth
  deriving DecidableEq, Repr

/-- The fault that the construction itself meets: the device reset of R441 on a SOCKET device whose setup is
fatal (R351). -/
def constructionFault (cfg : Config) : Option DevFault :=
  if cfg.backend = .socket ∧ cfg.socketSetupFatal = true then some (.backendSetupFailed .bus) else none

/-- A device just constructed (R441), with empty memory and nothing scheduled. -/
def State.construct (cfg : Config) : State where
  cfg := cfg
  regs := RegFile.constructed cfg
  bd := bdRamAfterReset cfg 0
  tx := TxWork.afterReset cfg 0
  rx := RxWork.afterReset cfg 0
  irq := false
  stop := false
  fault := constructionFault cfg
  mem := []
  txs := []
  rxOff := 0
  lbOff := 0
  sockq := []
  wireOut := []
  history := (constructionFault cfg).toList.map .fault
  busOut := []
  draws := 1
  sched := []
  txDue := false
  rxDue := false

/-- The machine right after reset: a device constructed with R7's default parameters. -/
def State.reset : State := State.construct Config.standard

end Sys2Proof.Machine
end

