-- ==== Sys2Proof/Machine/Flags.lean ====
section
/-! DEFINITION. Single bits: the positions of the register bits the rules read (10_state.md R34 to R36,
60_exceptions.md R401), setting and clearing a bit, the write-one-to-clear of INT_SOURCE (R188), and
which mask bit gates which event (R269, R404). The block has no condition codes (R68). -/

namespace Sys2Proof.Machine

/-- `w with bit k := 1`. -/
def setBit (w : Word) (k : Nat) : Word := w ||| BitVec.twoPow 32 k

/-- `w with bit k := 0`. -/
def clearBit (w : Word) (k : Nat) : Word := w &&& ~~~(BitVec.twoPow 32 k)

/-- MODER.RXEN, bit 0 (R34). -/
def moderRxEn (w : Word) : Bool := w.getLsbD 0

/-- MODER.TXEN, bit 1 (R34). -/
def moderTxEn (w : Word) : Bool := w.getLsbD 1

/-- MODER.PRO, bit 5 (R34). -/
def moderPro (w : Word) : Bool := w.getLsbD 5

/-- MODER.LOOPBCK, bit 7 (R34). -/
def moderLoopbck (w : Word) : Bool := w.getLsbD 7

/-- MODER.RST, bit 11 (R34). -/
def moderRst (w : Word) : Bool := w.getLsbD 11

/-- MODER.DLYCRCEN, bit 12 (R34). -/
def moderDlyCrcEn (w : Word) : Bool := w.getLsbD 12

/-- MODER.CRCEN, bit 13 (R34). -/
def moderCrcEn (w : Word) : Bool := w.getLsbD 13

/-- MODER.HUGEN, bit 14 (R34). -/
def moderHugEn (w : Word) : Bool := w.getLsbD 14

/-- MODER.PAD, bit 15 (R34). -/
def moderPad (w : Word) : Bool := w.getLsbD 15

/-- The TX engine is active (R63). -/
def State.txActive (s : State) : Bool := moderTxEn s.regs.moder

/-- The RX engine is active (R63). -/
def State.rxActive (s : State) : Bool := moderRxEn s.regs.moder

/-- The interrupt sources of R401. -/
inductive IntSrc where
  | txb
  | txe
  | rxb
  | rxe
  | busy
  | txc
  | rxc
  deriving DecidableEq, Repr

/-- The cause code of a source: its bit position in INT_SOURCE and in INT_MASK (R35, R36, R401). -/
def intBit : IntSrc → Nat
  | .txb => 0
  | .txe => 1
  | .rxb => 2
  | .rxe => 3
  | .busy => 4
  | .txc => 5
  | .rxc => 6

/-- The event's source bit set, whether or not it asserts the line (R401). -/
def raiseSource (src : IntSrc) (s : State) : State :=
  { s with regs := { s.regs with intSource := setBit s.regs.intSource (intBit src) } }

/-- The source is masked in (R36). -/
def maskedIn (src : IntSrc) (s : State) : Bool := s.regs.intMask.getLsbD (intBit src)

/-- `TxIrqEnabled(ev)` (R269). -/
def txIrqEnabled (ev : IntSrc) (s : State) : Bool :=
  match s.cfg.txIrqMaskPolicy with
  | .matching => maskedIn ev s
  | .either => maskedIn .txb s || maskedIn .txe s

/-- INT_SOURCE after a write of `v`: exactly the bits written as 1 cleared (R188). -/
def writeOneToClear (old v : Word) : Word := old &&& ~~~v

/-- The line after an INT_SOURCE write: deasserted when INT_SOURCE goes from nonzero to zero (R188, R407). -/
def irqAfterClear (old new : Word) (irq : Bool) : Bool :=
  if old ≠ 0 ∧ new = 0 then false else irq

end Sys2Proof.Machine
end

