-- ==== Sys2Proof/Machine/Operands.lean ====
section
/-! DEFINITION. The fields the rules take from words: descriptor word 0 (30_encoding.md R144, 10_state.md
R57, R58), PACKETLEN (R40) and the station address (R51, 42_rx_engine.md R307). -/

namespace Sys2Proof.Machine

/-- `LEN(w) = w[31:16]` (R144). -/
def bdLen (w : Word) : BitVec 16 := w.extractLsb' 16 16

/-- `RD(w) = w[15]`: ready (TX), empty (RX) (R144). -/
def bdReady (w : Word) : Bool := w.getLsbD 15

/-- `IRQ(w) = w[14]` (R144). -/
def bdIrq (w : Word) : Bool := w.getLsbD 14

/-- `WR(w) = w[13]` (R144). -/
def bdWrap (w : Word) : Bool := w.getLsbD 13

/-- `PAD(w) = w[12]` (R144). -/
def bdPad (w : Word) : Bool := w.getLsbD 12

/-- `CRC(w) = w[11]` (R144). -/
def bdCrc (w : Word) : Bool := w.getLsbD 11

/-- `SetLEN(w, n) = {n[15:0], w[15:0]}` (R144). -/
def setBdLen (w : Word) (n : Nat) : Word := BitVec.ofNat 16 n ++ w.extractLsb' 0 16

/-- `w with RD := 0`. -/
def clearReady (w : Word) : Word := clearBit w 15

/-- `w with LC := 0`, the late-collision bit of a TX descriptor (R57, R267). -/
def clearTxCollision (w : Word) : Word := clearBit w 2

/-- `ClearTxErrors(w) = w & ~0x000001FF` (R263). -/
def clearTxErrors (w : Word) : Word := w &&& ~~~0x000001FF#32

/-- `w & ~0x000000FF`, the RX error flags cleared (R303). -/
def clearRxErrors (w : Word) : Word := w &&& ~~~0x000000FF#32

/-- `w with SF := 1`, too short (R58, R310). -/
def setTooShort (w : Word) : Word := setBit w 2

/-- `w with TL := 1`, too big (R58, R310). -/
def setTooBig (w : Word) : Word := setBit w 3

/-- `PACKETLEN.MINFL = PACKETLEN[31:16]` (R40). -/
def minFl (packetLen : Word) : BitVec 16 := packetLen.extractLsb' 16 16

/-- `PACKETLEN.MAXFL = PACKETLEN[15:0]` (R40). -/
def maxFl (packetLen : Word) : BitVec 16 := packetLen.extractLsb' 0 16

/-- `w[31:24]`, `w[23:16]`, `w[15:8]`, `w[7:0]`: the bytes of a DMA word, lowest address first (R102). -/
def wordBytes (w : Word) : List Byte :=
  [w.extractLsb' 24 8, w.extractLsb' 16 8, w.extractLsb' 8 8, w.extractLsb' 0 8]

/-- `{b0, b1, b2, b3}` (R102). -/
def wordOfBytes (b0 b1 b2 b3 : Byte) : Word := b0 ++ b1 ++ b2 ++ b3

/-- `MacBytes()`, the station address the receive filter compares, byte 0 first (R51, R307). -/
def macBytes (f : RegFile) : List Byte :=
  [f.macAddr1.extractLsb' 8 8, f.macAddr1.extractLsb' 0 8, f.macAddr0.extractLsb' 24 8,
    f.macAddr0.extractLsb' 16 8, f.macAddr0.extractLsb' 8 8, f.macAddr0.extractLsb' 0 8]

end Sys2Proof.Machine
end

