-- ==== Sys2Proof/Machine/Ops.lean ====
section
/-! DEFINITION. The named operations the meanings share: system memory and DMA (20_memory.md), the
descriptor RAM (00_scope.md R13), the staging buffers, the interrupt line, the stop request and the
faults (60_exceptions.md), a read's answer, the enable edges (40_register_interface.md R186) and the
device reset (70_reset_and_hazards.md R440). -/

namespace Sys2Proof.Machine

/-- What one step answers. -/
abbrev Result := Host.Outcome State Fault Refusal

/-! ### System memory -/

/-- What a byte of system memory that nothing has written reads as (DESIGN CHOICE, log 4). -/
def memDefault : Byte := 0

/-- The byte at an address. -/
def Memory.read : List Host.Cell → Nat → Byte
  | [], _ => memDefault
  | (k, b) :: m, a => if k = a then b else Memory.read m a

/-- The memory with one byte written, in canonical form again. -/
def Memory.write : List Host.Cell → Nat → Byte → List Host.Cell
  | [], a, b => if b = memDefault then [] else [(a, b)]
  | (k, c) :: m, a, b =>
    if a < k then if b = memDefault then (k, c) :: m else (a, b) :: (k, c) :: m
    else if a = k then if b = memDefault then m else (a, b) :: m
    else (k, c) :: Memory.write m a b

/-- Every address of the list is above `lo` (if there is a `lo`), they rise strictly and are 32-bit
addresses, and no entry equals what an unlisted address reads as. -/
def Memory.wfFrom : Option Nat → List Host.Cell → Bool
  | _, [] => true
  | lo, (k, b) :: m =>
    (match lo with
      | none => true
      | some l => decide (l < k)) && decide (k < 2 ^ 32) && b != memDefault && Memory.wfFrom (some k) m

/-- The canonical form of memory. -/
def Memory.wf (m : List Host.Cell) : Bool := Memory.wfFrom none m

/-- The bytes stored at `a, a + 1, …`, addresses modulo 2^32 (R110). -/
def Memory.writeBytes (m : List Host.Cell) (a : Word) : List Byte → List Host.Cell
  | [] => m
  | b :: bs => Memory.writeBytes (Memory.write m a.toNat b) (a + 1) bs

/-- `MemRead(a, 4)`: the big-endian word at `a` (R102). -/
def Memory.readWord (m : List Host.Cell) (a : Word) : Word :=
  wordOfBytes (Memory.read m a.toNat) (Memory.read m (a + 1).toNat) (Memory.read m (a + 2).toNat)
    (Memory.read m (a + 3).toNat)

/-- `MemWrite(a, 4, v)`: the word stored big-endian at `a` (R102). -/
def Memory.writeWord (m : List Host.Cell) (a v : Word) : List Host.Cell := Memory.writeBytes m a (wordBytes v)

/-- The memory admits an access to this byte (R111). The spec leaves admission to the memory. That one list, fixed for
the machine, answers alike for reads and writes, TX, RX and other bus masters is the model's choice (DESIGN CHOICE,
log 5). -/
def admitsByte (cfg : Config) (a : Word) : Bool :=
  cfg.memHoles.all fun h => decide (a.toNat < h.1) || decide (h.1 + h.2 ≤ a.toNat)

/-- The memory admits a DMA access to the word at `a` (R111). -/
def admitsWord (cfg : Config) (a : Word) : Bool :=
  admitsByte cfg a && admitsByte cfg (a + 1) && admitsByte cfg (a + 2) && admitsByte cfg (a + 3)

/-- `a[1:0] = 0` (R104). -/
def aligned4 (a : Word) : Bool := a.extractLsb' 0 2 == 0

/-! ### History, answers, interrupt line, stop, faults -/

/-- An event recorded at the end of the history (R67). -/
def record (e : HistEvent) (s : State) : State := { s with history := s.history ++ [e] }

/-- A bus read answers `v` (R10). -/
def respond (v : Word) (s : State) : State := { s with busOut := s.busOut ++ [v] }

/-- One draw counter value used up (R13 `draw()`). -/
def drawn (s : State) : State := { s with draws := s.draws + 1 }

/-- `AssertIrq()` (R406). -/
def assertIrq (s : State) : State := record .irqAssert { s with irq := true }

/-- `AssertIrq()` under a condition. -/
def assertIrqIf (c : Bool) (s : State) : State := if c = true then assertIrq s else s

/-- `RequestStop()` (R412). -/
def requestStop (s : State) : State := record .stopRequest { s with stop := true }

/-- `raise Fault(reason)`: the step has no next state (R414). -/
def raise (f : DevFault) : Result := .fault (.raised f)

/-- A step whose DMA access is to the word at `a`: the alignment fault of R104 before the access; no step of the
engine, everything staying as it is, where the memory does not admit the access (R14, R111: stuck, log 5);
otherwise `go`. -/
def dmaStep (agent : Agent) (a : Word) (s : State) (go : Result) : Result :=
  if aligned4 a = false then raise (.misalignedBuffer agent a)
  else if admitsWord s.cfg a = false then .next s
  else go

/-- The device at rest after a step raised `f`: everything as before the step, the first fault recorded and
the event in the history (R414). -/
def State.afterFault (f : DevFault) (s : State) : State :=
  record (.fault f) { s with fault := s.fault <|> some f }

/-! ### Descriptor RAM -/

/-- `BdRead(i)` (R13). -/
def bdRead (agent : Agent) (i : Nat) (s : State) : Except DevFault Word :=
  match s.bd[i]? with
  | some w => .ok w
  | none => .error (.bdIndexOutOfRange agent i)

/-- The two words of the descriptor at a ring pointer, word 0 first (R262, R302). -/
def bdReadPair (agent : Agent) (idx : Word) (s : State) : Except DevFault (Word × Word) :=
  match bdRead agent idx.toNat s with
  | .error f => .error f
  | .ok w0 =>
    match bdRead agent (idx + 1).toNat s with
    | .error f => .error f
    | .ok w1 => .ok (w0, w1)

/-- `BdWrite(i, v)` on an index inside the RAM (R13). -/
def bdWrite (i : Nat) (v : Word) (s : State) : State := { s with bd := s.bd.set i v }

/-! ### Staging buffers -/

/-- Bytes `0 … n - 1` of a staging buffer; a byte never staged is a draw of counter `c` (R71, R72). -/
def fifoTake (fifo : List Byte) (n c : Nat) : List Byte :=
  fifo.take n ++ (List.range (n - fifo.length)).map fun k => Config.freeByte c (fifo.length + k)

/-- The staging buffer with `bs` written at byte `i`; all other bytes stay. -/
def fifoWrite (fifo : List Byte) (i : Nat) (bs : List Byte) (c : Nat) : List Byte :=
  fifoTake fifo i c ++ bs ++ fifo.drop (i + bs.length)

/-! ### Enable edges -/

/-- `TxEnableEdge()` (R186). The engine takes its first step in the next tick (R463). -/
def txEnableEdge (s : State) : State :=
  { s with
    tx :=
      { s.tx with
        state := .idle
        sent := 0
        left := 0
        idx := if s.cfg.reenableResetsIndex = true then 0 else s.tx.idx }
    txDue := false }

/-- `RxEnableEdge()` (R186). The engine takes its first step in the next tick (R463). -/
def rxEnableEdge (s : State) : State :=
  { s with
    rx :=
      { s.rx with
        state := .idle
        done := 0
        len := 0
        error := false
        idx := if s.cfg.reenableResetsIndex = true then 2 * s.regs.txBdNum else s.rx.idx }
    rxDue := false }

/-! ### Device reset -/

/-- `TransportReset()` on a device whose setup does not fail (R351). -/
def transportReset (s : State) : State :=
  match s.cfg.backend with
  | .file => { s with txs := [], rxOff := 0, lbOff := 0 }
  | .socket => { s with sockq := [] }

/-- The state a device reset leaves (R440, R69 to R73). -/
def resetState (s : State) : State :=
  drawn
    (transportReset
      { s with
        regs := s.regs.afterReset
        bd := bdRamAfterReset s.cfg s.draws
        tx := TxWork.afterReset s.cfg s.draws
        rx := RxWork.afterReset s.cfg s.draws
        irq := false })

/-- `DeviceReset()` as a part of a bus access: it fails where the socket setup is fatal (R351, R440). -/
def deviceReset (s : State) : Result :=
  if s.cfg.backend = .socket ∧ s.cfg.socketSetupFatal = true then raise (.backendSetupFailed .bus)
  else .next (resetState s)

end Sys2Proof.Machine
end

