-- ==== Sys2Proof/Machine/DescriptorRam.lean ====
section
/-! DEFINITION. The bus accesses to the descriptor RAM and the accesses that decode to nothing
(40_register_interface.md R182, R183, R225, R226). -/

namespace Sys2Proof.Machine

/-- `RD_BD` (R225). An index outside the RAM comes from no decoded access; R13's `BdRead` faults on it. -/
def execRdBd (i : Nat) (s : State) : Result :=
  match bdRead .bus i s with
  | .ok w => .next (respond w s)
  | .error f => raise f

/-- `WR_BD` (R226). An index outside the RAM comes from no decoded access; R13's `BdWrite` faults on it. -/
def execWrBd (i : Nat) (v : Word) (s : State) : Result :=
  if i < s.bd.length then .next (bdWrite i v s) else raise (.bdIndexOutOfRange .bus i)

/-- `RD_UNMAPPED` (R182): answers 0 and is reported. -/
def execRdUnmapped (off : BitVec 16) (s : State) : Result :=
  .next (respond 0 (record (.illegalAccess .read off) s))

/-- `WR_UNMAPPED` (R183): is reported and changes nothing. -/
def execWrUnmapped (off : BitVec 16) (_v : Word) (s : State) : Result :=
  .next (record (.illegalAccess .write off) s)

end Sys2Proof.Machine
end

