-- ==== Sys2Proof/Machine/RegisterReads.lean ====
section
/-! DEFINITION. The register reads (40_register_interface.md): a read returns the stored 32 bits and has no
side effect, INT_SOURCE included (20_memory.md R107). -/

namespace Sys2Proof.Machine

/-- A register read: the stored value is the access's answer (R33, R227). -/
def readReg (r : Reg) (s : State) : Result := .next (respond (s.regs.get r) s)

/-- `RD_MODER` (R184). -/
def execRdModer (s : State) : Result := readReg .moder s

/-- `RD_INT_SOURCE` (R187). -/
def execRdIntSource (s : State) : Result := readReg .intSource s

/-- `RD_INT_MASK` (R189). -/
def execRdIntMask (s : State) : Result := readReg .intMask s

/-- `RD_IPGT` (R191). -/
def execRdIpgt (s : State) : Result := readReg .ipgt s

/-- `RD_IPGR1` (R193). -/
def execRdIpgr1 (s : State) : Result := readReg .ipgr1 s

/-- `RD_IPGR2` (R195). -/
def execRdIpgr2 (s : State) : Result := readReg .ipgr2 s

/-- `RD_PACKETLEN` (R197). -/
def execRdPacketLen (s : State) : Result := readReg .packetLen s

/-- `RD_COLLCONF` (R199). -/
def execRdCollConf (s : State) : Result := readReg .collConf s

/-- `RD_TX_BD_NUM` (R201). -/
def execRdTxBdNum (s : State) : Result := readReg .txBdNum s

/-- `RD_CTRLMODER` (R203). -/
def execRdCtrlModer (s : State) : Result := readReg .ctrlModer s

/-- `RD_MIIMODER` (R205). -/
def execRdMiiModer (s : State) : Result := readReg .miiModer s

/-- `RD_MIICOMMAND` (R207). -/
def execRdMiiCommand (s : State) : Result := readReg .miiCommand s

/-- `RD_MIIADDRESS` (R209). -/
def execRdMiiAddress (s : State) : Result := readReg .miiAddress s

/-- `RD_MIITX_DATA` (R211). -/
def execRdMiiTxData (s : State) : Result := readReg .miiTxData s

/-- `RD_MIIRX_DATA` (R213). -/
def execRdMiiRxData (s : State) : Result := readReg .miiRxData s

/-- `RD_MIISTATUS` (R215). -/
def execRdMiiStatus (s : State) : Result := readReg .miiStatus s

/-- `RD_MAC_ADDR0` (R217). -/
def execRdMacAddr0 (s : State) : Result := readReg .macAddr0 s

/-- `RD_MAC_ADDR1` (R219). -/
def execRdMacAddr1 (s : State) : Result := readReg .macAddr1 s

/-- `RD_HASH0` (R221). -/
def execRdHash0 (s : State) : Result := readReg .hash0 s

/-- `RD_HASH1` (R223). -/
def execRdHash1 (s : State) : Result := readReg .hash1 s

end Sys2Proof.Machine
end

