-- ==== Sys2Proof/Machine/RegisterWrites.lean ====
section
/-! DEFINITION. The register writes (40_register_interface.md). Only MODER, INT_SOURCE and TX_BD_NUM have a
side effect (20_memory.md R107). -/

namespace Sys2Proof.Machine

/-- A plain register write: all 32 bits stored (R33). -/
def writeReg (r : Reg) (v : Word) (s : State) : Result := .next { s with regs := s.regs.set r v }

/-- The MODER value stored, then the edge of each enable bit that went from 0 to 1, TX first (R185). -/
def writeModer (v : Word) (s : State) : State :=
  let old := s.regs.moder
  let s1 := { s with regs := { s.regs with moder := v } }
  let s2 := if moderTxEn old = false ∧ moderTxEn v = true then txEnableEdge s1 else s1
  if moderRxEn old = false ∧ moderRxEn v = true then rxEnableEdge s2 else s2

/-- `WR_MODER` (R185): RST = 1 resets the device and supersedes the other bits. -/
def execWrModer (v : Word) (s : State) : Result :=
  if moderRst v = true then deviceReset s else .next (writeModer v s)

/-- `WR_INT_SOURCE` (R188). -/
def execWrIntSource (v : Word) (s : State) : Result :=
  let old := s.regs.intSource
  let new := writeOneToClear old v
  .next { s with regs := { s.regs with intSource := new }, irq := irqAfterClear old new s.irq }

/-- `WR_TX_BD_NUM` (R202): `rx.idx <- (2 * v) mod 2^32`, whatever `rx.state` is. -/
def execWrTxBdNum (v : Word) (s : State) : Result :=
  .next { s with regs := { s.regs with txBdNum := v }, rx := { s.rx with idx := 2 * v } }

/-- `WR_INT_MASK` (R190). -/
def execWrIntMask (v : Word) (s : State) : Result := writeReg .intMask v s

/-- `WR_IPGT` (R192). -/
def execWrIpgt (v : Word) (s : State) : Result := writeReg .ipgt v s

/-- `WR_IPGR1` (R194). -/
def execWrIpgr1 (v : Word) (s : State) : Result := writeReg .ipgr1 v s

/-- `WR_IPGR2` (R196). -/
def execWrIpgr2 (v : Word) (s : State) : Result := writeReg .ipgr2 v s

/-- `WR_PACKETLEN` (R198). -/
def execWrPacketLen (v : Word) (s : State) : Result := writeReg .packetLen v s

/-- `WR_COLLCONF` (R200). -/
def execWrCollConf (v : Word) (s : State) : Result := writeReg .collConf v s

/-- `WR_CTRLMODER` (R204). -/
def execWrCtrlModer (v : Word) (s : State) : Result := writeReg .ctrlModer v s

/-- `WR_MIIMODER` (R206). -/
def execWrMiiModer (v : Word) (s : State) : Result := writeReg .miiModer v s

/-- `WR_MIICOMMAND` (R208). -/
def execWrMiiCommand (v : Word) (s : State) : Result := writeReg .miiCommand v s

/-- `WR_MIIADDRESS` (R210). -/
def execWrMiiAddress (v : Word) (s : State) : Result := writeReg .miiAddress v s

/-- `WR_MIITX_DATA` (R212). -/
def execWrMiiTxData (v : Word) (s : State) : Result := writeReg .miiTxData v s

/-- `WR_MIIRX_DATA` (R214). -/
def execWrMiiRxData (v : Word) (s : State) : Result := writeReg .miiRxData v s

/-- `WR_MIISTATUS` (R216). -/
def execWrMiiStatus (v : Word) (s : State) : Result := writeReg .miiStatus v s

/-- `WR_MAC_ADDR0` (R218). -/
def execWrMacAddr0 (v : Word) (s : State) : Result := writeReg .macAddr0 v s

/-- `WR_MAC_ADDR1` (R220). -/
def execWrMacAddr1 (v : Word) (s : State) : Result := writeReg .macAddr1 v s

/-- `WR_HASH0` (R222). -/
def execWrHash0 (v : Word) (s : State) : Result := writeReg .hash0 v s

/-- `WR_HASH1` (R224). -/
def execWrHash1 (v : Word) (s : State) : Result := writeReg .hash1 v s

end Sys2Proof.Machine
end

