-- ==== Sys2Proof/Machine/Transport.lean ====
section
/-! DEFINITION. The frame port to the transport (43_transport.md): the record format, the stream reads
and the operations the engines call, and the ENV agent's step. -/

namespace Sys2Proof.Machine

/-! ### FILE variant -/

/-- `Enc(L)`: `LEN_FIELD_BYTES` bytes in `HOST_ENDIAN` order (R352). A length that does not fit in them has no
encoding stated: its bytes are free values (DESIGN CHOICE, log 21). -/
def encLen (cfg : Config) (n : Nat) : List Byte :=
  if n < 256 ^ cfg.lenFieldBytes then
    let low := (List.range cfg.lenFieldBytes).map fun i => BitVec.ofNat 8 (n / 256 ^ i)
    match cfg.hostEndian with
    | .little => low
    | .big => low.reverse
  else (List.range cfg.lenFieldBytes).map (Config.freeLenByte n)

/-- The unsigned number whose bytes, least significant first, are these. -/
def natOfLow (bs : List Byte) : Nat := bs.foldr (fun b n => b.toNat + 256 * n) 0

/-- `Dec(b)` (R352). -/
def decLen (cfg : Config) (bs : List Byte) : Nat :=
  match cfg.hostEndian with
  | .little => natOfLow bs
  | .big => natOfLow bs.reverse

/-- `Take(S, c, k)` (R353). -/
def takeAt (stream : List Byte) (cursor k : Nat) : List Byte := (stream.drop cursor).take k

/-- The byte sequence a source names (R354). -/
def sourceBytes (src : RxSource) (s : State) : List Byte :=
  match src with
  | .rxFile => if s.cfg.rxSourceAvailable = true then s.cfg.rxs else []
  | .loopback => s.txs

/-- The cursor a source names (R354). -/
def sourceCursor (src : RxSource) (s : State) : Nat :=
  match src with
  | .rxFile => s.rxOff
  | .loopback => s.lbOff

/-- The cursor of a source advanced by `n` (R353, R359). -/
def advanceCursor (src : RxSource) (n : Nat) (s : State) : State :=
  match src with
  | .rxFile => { s with rxOff := s.rxOff + n }
  | .loopback => { s with lbOff := s.lbOff + n }

/-- `RxFileReadLen(src)`: `none` where fewer than `LEN_FIELD_BYTES` bytes were left (R357). -/
def rxFileReadLen (src : RxSource) (s : State) : Option Nat × State :=
  let b := takeAt (sourceBytes src s) (sourceCursor src s) s.cfg.lenFieldBytes
  (if b.length = s.cfg.lenFieldBytes then some (decLen s.cfg b) else none, advanceCursor src b.length s)

/-- `RxFileRead(src, L)` (R358). -/
def rxFileRead (src : RxSource) (n : Nat) (s : State) : Frame × State :=
  let p := takeAt (sourceBytes src s) (sourceCursor src s) n
  (p, advanceCursor src p.length s)

/-- `RxFileSkip(src, L)` (R359). -/
def rxFileSkip (src : RxSource) (n : Nat) (s : State) : State := advanceCursor src n s

/-- `TxLog(L)` (R265, R355). -/
def txLog (n : Nat) (s : State) : State :=
  if s.cfg.backend = .file ∧ s.cfg.txSinkAvailable = true then { s with txs := s.txs ++ encLen s.cfg n } else s

/-! ### Sending -/

/-- The transport accepts the whole frame: always, of an available file sink (R356); as a draw says, of an
available socket (R366). -/
def sendAccepted (s : State) : Bool :=
  match s.cfg.backend with
  | .file => s.cfg.txSinkAvailable
  | .socket => s.cfg.txSinkAvailable && Config.freeBit s.draws 0

/-- `TxSend(p)`: how many bytes the transport accepted, and the state after (R356, R366). -/
def txSend (p : Frame) (s : State) : Nat × State :=
  if sendAccepted s = true then
    (p.length,
      record (.frameSent p)
        (match s.cfg.backend with
          | .file => { s with txs := s.txs ++ p }
          | .socket => { s with wireOut := s.wireOut ++ [p] }))
  else (0, s)

/-! ### SOCKET variant -/

/-- `SockProbe()`: the head frame, removed, if there is one (R364). -/
def sockProbe (s : State) : Option Frame × State :=
  match s.sockq with
  | [] => (none, s)
  | f :: q => (some f, { s with sockq := q })

/-- `SockRecv()`: as a probe, but an empty frame is taken and answers `none` (R365). -/
def sockRecv (s : State) : Option Frame × State :=
  match s.sockq with
  | [] => (none, s)
  | f :: q => (if f.length = 0 then none else some f, { s with sockq := q })

/-- `EnvArrive(f)`; the FILE variant has no ENV step (R363). -/
def envArrive (f : Frame) (s : State) : State :=
  match s.cfg.backend with
  | .file => s
  | .socket => if s.cfg.rxSourceAvailable = true then { s with sockq := s.sockq ++ [f] } else s

/-! ### System memory, written by another bus master -/

/-- Bytes that another master stores at `a, a + 1, …`: the byte changes where the memory admits the access
(R111, R149, R453; log 16). -/
def otherMasterStore (a : Word) (bs : List Byte) (s : State) : State :=
  match bs with
  | [] => s
  | b :: rest =>
    otherMasterStore (a + 1) rest
      (if admitsByte s.cfg a = true then { s with mem := Memory.write s.mem a.toNat b } else s)

end Sys2Proof.Machine
end

