-- ==== Sys2Proof/Machine/RxEngine.lean ====
section
/-! DEFINITION. The receive engine: one meaning per step (42_rx_engine.md). Whether the engine may step
at all (R300) is the fetch's concern. -/

namespace Sys2Proof.Machine

/-- `NextRx(idx, wr)`, with TX_BD_NUM as it is when evaluated (R311). -/
def nextRx (cfg : Config) (txBdNum idx : Word) (wr : Bool) : Word :=
  if wr = true ∨ cfg.wrapLimit ≤ idx.toNat then 2 * txBdNum else idx + 2

/-- `WaitBdReady()` after the snapshot of `w0, w1` (R302, R303). -/
def rxTake (w0 w1 : Word) (s : State) : State :=
  { s with
    rx :=
      { s.rx with
        bd := clearRxErrors w0
        buf := w1
        src := if moderLoopbck s.regs.moder = true then .loopback else .rxFile
        state := .recv } }

/-- `WaitBdBusy()` (R305). -/
def rxBusy (s : State) : State :=
  match s.cfg.backend with
  | .file => s
  | .socket =>
    match sockProbe s with
    | (none, s1) => s1
    | (some _, s1) => assertIrqIf (maskedIn .busy s1) (raiseSource .busy s1)

/-- The WAIT_BD step on the descriptor `w0, w1` (R302 to R305). -/
def rxSnapshot (w0 w1 : Word) (s : State) : State :=
  if bdReady w0 = true then rxTake w0 w1 s
  else if s.rxActive = false then { s with rx := { s.rx with bd := w0, buf := w1, state := .idle } }
  else rxBusy { s with rx := { s.rx with bd := w0, buf := w1 } }

/-- A frame captured into the staging buffer: on to WRITE_FIFO (R306, R307). -/
def rxCapture (p : Frame) (s : State) : State :=
  { s with
    rx :=
      { s.rx with
        fifo := fifoWrite s.rx.fifo 0 p s.draws
        len := p.length
        done := 0
        state := .writeFifo } }

/-- The receive filter (R307): everything in promiscuous mode; otherwise the station address, and a draw for
a frame too short to hold an address. -/
def rxAccepts (f : Frame) (s : State) : Bool :=
  if moderPro s.regs.moder = true then true
  else if f.length < 6 then Config.freeBit s.draws 0
  else f.take 6 == macBytes s.regs

/-- The DMA address of the next WRITE_FIFO word (R308). -/
def rxDmaAddr (s : State) : Word := s.rx.buf + BitVec.ofNat 32 s.rx.done

/-- `B(k)`: a byte of the frame, or a draw past its end (R309). -/
def rxByte (s : State) (k : Nat) : Byte :=
  if k < s.rx.len then s.rx.fifo.getD k (Config.freeByte s.draws k) else Config.freeByte s.draws k

/-- The word a WRITE_FIFO step writes (R308). -/
def rxDmaWord (s : State) : Word :=
  wordOfBytes (rxByte s s.rx.done) (rxByte s (s.rx.done + 1)) (rxByte s (s.rx.done + 2)) (rxByte s (s.rx.done + 3))

/-- The WRITE_FIFO step's DMA write, before the completion check (R308). -/
def rxStore (s : State) : State :=
  let a := rxDmaAddr s
  let w := rxDmaWord s
  drawn
    (record (.memWrite .rx a w)
      { s with mem := Memory.writeWord s.mem a w, rx := { s.rx with done := s.rx.done + 4 } })

/-- The WRITE_FIFO step at hand writes the frame's last word (R308). -/
def rxLastWord (s : State) : Bool := decide (s.rx.len ≤ s.rx.done + 4)

/-- Word 0 as `CompleteRx` writes it back: LEN, RD cleared, SF and TL by the current PACKETLEN (R310). -/
def rxWriteBack (s : State) : Word :=
  let w := clearReady (setBdLen s.rx.bd s.rx.len)
  let w := if s.rx.len < (minFl s.regs.packetLen).toNat then setTooShort w else w
  if (maxFl s.regs.packetLen).toNat < s.rx.len then setTooBig w else w

/-- `CompleteRx()`, with `rx.idx` inside the descriptor RAM (R310). -/
def completeRx (s : State) : State :=
  let w := rxWriteBack s
  let s1 := bdWrite s.rx.idx.toNat w (raiseSource .rxb { s with rx := { s.rx with bd := w } })
  let s2 := { s1 with rx := { s1.rx with idx := nextRx s.cfg s.regs.txBdNum s.rx.idx (bdWrap w) } }
  let s3 := assertIrqIf (maskedIn .rxb s2 && bdIrq w) s2
  { s3 with rx := { s3.rx with state := .idle } }

/-- `RX_IDLE` (R301). -/
def execRxIdle (s : State) : Result := .next { s with rx := { s.rx with state := .waitBd } }

/-- `RX_WAIT_BD` (R302). -/
def execRxWaitBd (s : State) : Result :=
  match bdReadPair .rx s.rx.idx s with
  | .error f => raise f
  | .ok (w0, w1) => .next (rxSnapshot w0 w1 s)

/-- `RX_RECV_FILE` (R306). -/
def execRxRecvFile (s : State) : Result :=
  match rxFileReadLen s.rx.src s with
  | (none, s1) => .next (requestStop s1)
  | (some n, s1) =>
    if n < s.cfg.minHdrLen then
      .next { rxFileSkip s.rx.src n s1 with rx := { s.rx with state := .waitBd } }
    else if s.cfg.maxFrame < n then raise (.frameTooLarge .rx n)
    else
      let (p, s2) := rxFileRead s.rx.src n s1
      if p.length < n then .next { s2 with rx := { s2.rx with error := true } }
      else .next (rxCapture p s2)

/-- `RX_RECV_SOCKET` (R307). -/
def execRxRecvSocket (s : State) : Result :=
  match sockRecv s with
  | (none, s1) => .next s1
  | (some f, s1) =>
    if s.cfg.maxFrame < f.length then raise (.frameTooLarge .rx f.length)
    else if rxAccepts f s1 = true then .next (drawn (rxCapture f s1))
    else .next (drawn s1)

/-- `RX_WRITE_FIFO` (R308, R310). `BdWrite` faults on a pointer outside the RAM, and then the step has no
effect at all, its DMA write included (R414). -/
def execRxWriteFifo (s : State) : Result :=
  dmaStep .rx (rxDmaAddr s) s
    (if rxLastWord s = true then
      if s.rx.idx.toNat < s.bd.length then .next (completeRx (rxStore s))
      else raise (.bdIndexOutOfRange .rx s.rx.idx.toNat)
    else .next (rxStore s))

end Sys2Proof.Machine
end

