-- ==== Sys2Proof/Machine/TxEngine.lean ====
section
/-! DEFINITION. The transmit engine: one meaning per step (41_tx_engine.md). Whether the engine may step
at all (R260) is the fetch's concern. -/

namespace Sys2Proof.Machine

/-- `NextTx(idx, wr)` (R268). -/
def nextTx (cfg : Config) (idx : Word) (wr : Bool) : Word :=
  if wr = true ∨ cfg.wrapLimit ≤ idx.toNat then 0 else idx + 2

/-- `tx.min_len` of `DeriveTxParams` (R264). -/
def txMinLen (w0 : Word) (regs : RegFile) : BitVec 16 :=
  if bdPad w0 = true ∨ moderPad regs.moder = true then minFl regs.packetLen else bdLen w0

/-- `tx.max_len` of `DeriveTxParams`; `none` is UNBOUNDED (R264). -/
def txMaxLen (regs : RegFile) : Option (BitVec 16) :=
  if moderHugEn regs.moder = true then none else some (maxFl regs.packetLen)

/-- The working state of a WAIT_BD step that takes the ready descriptor `w0, w1` (R262 to R264). -/
def txTake (w0 w1 : Word) (s : State) : TxWork :=
  { s.tx with
    state := .readFifo
    bd := clearTxErrors w0
    buf := w1
    len := bdLen w0
    left := (bdLen w0).toNat
    sent := 0
    minLen := txMinLen w0 s.regs
    maxLen := txMaxLen s.regs
    needCrc := moderCrcEn s.regs.moder || bdCrc w0
    dlyCrc := moderDlyCrcEn s.regs.moder }

/-- The WAIT_BD step on the descriptor `w0, w1`: it is taken, and its length logged, where it is ready;
otherwise only the snapshot is written (R262, R265). -/
def txSnapshot (w0 w1 : Word) (s : State) : State :=
  if bdReady w0 = true then txLog (bdLen w0).toNat { s with tx := txTake w0 w1 s }
  else { s with tx := { s.tx with bd := w0, buf := w1 } }

/-- The DMA address of the next READ_FIFO word (R266). -/
def txDmaAddr (s : State) : Word := s.tx.buf + BitVec.ofNat 32 s.tx.sent

/-- A READ_FIFO step that stages the word at `txDmaAddr` (R266). -/
def txStage (s : State) : State :=
  let a := txDmaAddr s
  let w := Memory.readWord s.mem a
  let sent := s.tx.sent + 4
  drawn
    (record (.memRead .tx a w)
      { s with
        tx :=
          { s.tx with
            fifo := fifoWrite s.tx.fifo s.tx.sent (wordBytes w) s.draws
            sent := sent
            left := s.tx.len.toNat - min sent s.tx.len.toNat
            state :=
              if s.tx.len.toNat ≤ sent ∧ s.cfg.readFifoExtraTick = false then .transmit else s.tx.state } })

/-- The frame a TRANSMIT step hands to the transport: `tx.fifo[0 .. tx.len - 1]` (R267). -/
def txFrame (s : State) : Frame := fifoTake s.tx.fifo s.tx.len.toNat s.draws

/-- Word 0 as a TRANSMIT step writes it back: RD cleared, and LC too on a short write (R267). -/
def txWriteBack (sentInFull : Bool) (bd : Word) : Word :=
  if sentInFull = true then clearReady bd else clearTxCollision (clearReady bd)

/-- The TRANSMIT step, with `tx.idx` inside the descriptor RAM (R267). -/
def txComplete (s : State) : State :=
  let (n, s1) := txSend (txFrame s) s
  let full : Bool := n == s.tx.len.toNat
  let ev : IntSrc := if full = true then .txb else .txe
  let w := txWriteBack full s.tx.bd
  let s2 := bdWrite s.tx.idx.toNat w (raiseSource ev { s1 with tx := { s1.tx with bd := w } })
  let s3 := assertIrqIf (txIrqEnabled ev s2 && bdIrq w) s2
  drawn { s3 with tx := { s3.tx with idx := nextTx s.cfg s.tx.idx (bdWrap w), state := .waitBd } }

/-- `TX_IDLE` (R261). -/
def execTxIdle (s : State) : Result := .next { s with tx := { s.tx with state := .waitBd } }

/-- `TX_WAIT_BD` (R262). -/
def execTxWaitBd (s : State) : Result :=
  match bdReadPair .tx s.tx.idx s with
  | .error f => raise f
  | .ok (w0, w1) => .next (txSnapshot w0 w1 s)

/-- `TX_READ_FIFO` (R266). -/
def execTxReadFifo (s : State) : Result :=
  if s.tx.sent < s.tx.len.toNat then dmaStep .tx (txDmaAddr s) s (.next (txStage s))
  else .next { s with tx := { s.tx with state := .transmit } }

/-- `TX_TRANSMIT` (R267). `BdWrite` faults on a pointer outside the RAM (R13), and then the step has no
effect at all (R414). -/
def execTxTransmit (s : State) : Result :=
  if s.tx.idx.toNat < s.bd.length then .next (txComplete s)
  else raise (.bdIndexOutOfRange .tx s.tx.idx.toNat)

end Sys2Proof.Machine
end

