-- ==== Sys2Proof/Machine/Dispatch.lean ====
section
/-! DEFINITION. The dispatch: every operation of the table, and its meaning. -/

namespace Sys2Proof.Machine

def exec (i : Instr) (s : State) : Host.Outcome State Fault Refusal :=
  match i with
  | .rdModer => Sys2Proof.Machine.execRdModer s
  | .wrModer v => Sys2Proof.Machine.execWrModer v s
  | .rdIntSource => Sys2Proof.Machine.execRdIntSource s
  | .wrIntSource v => Sys2Proof.Machine.execWrIntSource v s
  | .rdIntMask => Sys2Proof.Machine.execRdIntMask s
  | .wrIntMask v => Sys2Proof.Machine.execWrIntMask v s
  | .rdIpgt => Sys2Proof.Machine.execRdIpgt s
  | .wrIpgt v => Sys2Proof.Machine.execWrIpgt v s
  | .rdIpgr1 => Sys2Proof.Machine.execRdIpgr1 s
  | .wrIpgr1 v => Sys2Proof.Machine.execWrIpgr1 v s
  | .rdIpgr2 => Sys2Proof.Machine.execRdIpgr2 s
  | .wrIpgr2 v => Sys2Proof.Machine.execWrIpgr2 v s
  | .rdPacketLen => Sys2Proof.Machine.execRdPacketLen s
  | .wrPacketLen v => Sys2Proof.Machine.execWrPacketLen v s
  | .rdCollConf => Sys2Proof.Machine.execRdCollConf s
  | .wrCollConf v => Sys2Proof.Machine.execWrCollConf v s
  | .rdTxBdNum => Sys2Proof.Machine.execRdTxBdNum s
  | .wrTxBdNum v => Sys2Proof.Machine.execWrTxBdNum v s
  | .rdCtrlModer => Sys2Proof.Machine.execRdCtrlModer s
  | .wrCtrlModer v => Sys2Proof.Machine.execWrCtrlModer v s
  | .rdMiiModer => Sys2Proof.Machine.execRdMiiModer s
  | .wrMiiModer v => Sys2Proof.Machine.execWrMiiModer v s
  | .rdMiiCommand => Sys2Proof.Machine.execRdMiiCommand s
  | .wrMiiCommand v => Sys2Proof.Machine.execWrMiiCommand v s
  | .rdMiiAddress => Sys2Proof.Machine.execRdMiiAddress s
  | .wrMiiAddress v => Sys2Proof.Machine.execWrMiiAddress v s
  | .rdMiiTxData => Sys2Proof.Machine.execRdMiiTxData s
  | .wrMiiTxData v => Sys2Proof.Machine.execWrMiiTxData v s
  | .rdMiiRxData => Sys2Proof.Machine.execRdMiiRxData s
  | .wrMiiRxData v => Sys2Proof.Machine.execWrMiiRxData v s
  | .rdMiiStatus => Sys2Proof.Machine.execRdMiiStatus s
  | .wrMiiStatus v => Sys2Proof.Machine.execWrMiiStatus v s
  | .rdMacAddr0 => Sys2Proof.Machine.execRdMacAddr0 s
  | .wrMacAddr0 v => Sys2Proof.Machine.execWrMacAddr0 v s
  | .rdMacAddr1 => Sys2Proof.Machine.execRdMacAddr1 s
  | .wrMacAddr1 v => Sys2Proof.Machine.execWrMacAddr1 v s
  | .rdHash0 => Sys2Proof.Machine.execRdHash0 s
  | .wrHash0 v => Sys2Proof.Machine.execWrHash0 v s
  | .rdHash1 => Sys2Proof.Machine.execRdHash1 s
  | .wrHash1 v => Sys2Proof.Machine.execWrHash1 v s
  | .rdBd k => Sys2Proof.Machine.execRdBd k s
  | .wrBd k v => Sys2Proof.Machine.execWrBd k v s
  | .rdUnmapped off => Sys2Proof.Machine.execRdUnmapped off s
  | .wrUnmapped off v => Sys2Proof.Machine.execWrUnmapped off v s
  | .txIdle => Sys2Proof.Machine.execTxIdle s
  | .txWaitBd => Sys2Proof.Machine.execTxWaitBd s
  | .txReadFifo => Sys2Proof.Machine.execTxReadFifo s
  | .txTransmit => Sys2Proof.Machine.execTxTransmit s
  | .rxIdle => Sys2Proof.Machine.execRxIdle s
  | .rxWaitBd => Sys2Proof.Machine.execRxWaitBd s
  | .rxRecvFile => Sys2Proof.Machine.execRxRecvFile s
  | .rxRecvSocket => Sys2Proof.Machine.execRxRecvSocket s
  | .rxWriteFifo => Sys2Proof.Machine.execRxWriteFifo s

end Sys2Proof.Machine
end

