-- ==== Sys2Proof/Machine/Fetch.lean ====
section
/-! DEFINITION. What the next step is (00_scope.md R9, 10_state.md R63, R64, 70_reset_and_hazards.md R463):
the next slot of the schedule, or, where nothing is scheduled, the scheduler's own next turn. -/

namespace Sys2Proof.Machine

/-- What the fetch finds. -/
inductive Fetched where
  /-- the operation to run, and the state to run it in -/
  | run (i : Instr) (s : State)
  /-- a step that is none of the table's operations, and the state after it -/
  | other (s : State)
  | refuse (r : Refusal)
  | halt (f : Fault)
  deriving DecidableEq, Repr

/-- The state code of `tx.state` (R142). -/
def txCode : TxState → BitVec 2
  | .idle => 0b00
  | .waitBd => 0b01
  | .readFifo => 0b10
  | .transmit => 0b11

/-- The state code of `rx.state` (R142). -/
def rxCode : RxState → BitVec 2
  | .idle => 0b00
  | .waitBd => 0b01
  | .recv => 0b10
  | .writeFifo => 0b11

/-- The TX engine has its step of the current tick still to take and is active (R463). -/
def State.txWaiting (s : State) : Bool := s.txDue && s.txActive

/-- The RX engine has its step of the current tick still to take and is active (R463). -/
def State.rxWaiting (s : State) : Bool := s.rxDue && s.rxActive

/-- The tick in which a turn falls: the current one while an engine has a step of it still to take, otherwise
a new one, in which each active engine has one to take (R463). -/
def beginTick (s : State) : State :=
  if s.txWaiting = true ∨ s.rxWaiting = true then s
  else { s with txDue := s.txActive, rxDue := s.rxActive }

/-- The TX engine's turn: its step, selected by `tx.state` alone (R260), or nothing where it has none to take
in this tick (R463). -/
def fetchTx (s : State) : Fetched :=
  let t := beginTick s
  if t.txWaiting = true then .run (decodeCode t.cfg (.tx (txCode t.tx.state))) { t with txDue := false }
  else .other s

/-- The RX engine's turn: its step, selected by `rx.state` and, in RECV, by `BACKEND` (R300), or nothing
where it has none to take in this tick (R463). -/
def fetchRx (s : State) : Fetched :=
  let t := beginTick s
  if t.rxWaiting = true then .run (decodeCode t.cfg (.rx (rxCode t.rx.state))) { t with rxDue := false }
  else .other s

/-- The offset of a bus address that reaches the block (R180). -/
def windowOffset (cfg : Config) (addr : Word) : Option (BitVec 16) :=
  if cfg.base.toNat ≤ addr.toNat ∧ addr.toNat < cfg.base.toNat + cfg.regionSize then
    some (BitVec.ofNat 16 (addr.toNat - cfg.base.toNat))
  else none

/-- The code of an access at a window offset (R141). -/
def accessCode (dir : Dir) (off : BitVec 16) (v : Word) : Code :=
  match dir with
  | .read => .read off
  | .write => .write off v

/-- A bus access: one outside the window never reaches the block (R180), one of another width than 32 bits
is refused (R181). -/
def fetchBus (acc : BusAccess) (s : State) : Fetched :=
  match windowOffset s.cfg acc.addr with
  | none => .other s
  | some off =>
    match acc.width with
    | .w32 => .run (decodeCode s.cfg (accessCode acc.dir off acc.data)) s
    | .w8 | .w16 => .refuse .accessWidth

/-- A slot of the schedule, taken from it already. -/
def fetchSlot (slot : Slot) (s : State) : Fetched :=
  match slot with
  | .bus acc => fetchBus acc s
  | .port dir off v => .run (decodeCode s.cfg (accessCode dir off v)) s
  | .tick => .other (beginTick s)
  | .txTurn => fetchTx s
  | .rxTurn => fetchRx s
  | .arrive f => .other (envArrive f s)
  | .store a bs => .other (otherMasterStore a bs s)

/-- Nothing is scheduled: the ticks keep coming (R463). The turn is that of the engine with a step to take,
a draw where both have one, and nobody's where neither engine is active. -/
def fetchFree (s : State) : Fetched :=
  let t := beginTick s
  if t.txWaiting = true then
    if t.rxWaiting = true then
      if Config.freeBit s.draws 0 = true then fetchTx (drawn s) else fetchRx (drawn s)
    else fetchTx s
  else fetchRx s

/-- The next step: none after a stop request or a fault (R64). -/
def fetch (s : State) : Fetched :=
  if s.stop = true then .halt .stopped
  else
    match s.fault with
    | some f => .halt (.faulted f)
    | none =>
      match s.sched with
      | [] => fetchFree s
      | slot :: rest => fetchSlot slot { s with sched := rest }

/-- The schedule with an access at the register port put first. -/
def State.withPortAccess (s : State) (dir : Dir) (off : BitVec 16) (v : Word) : State :=
  { s with sched := .port dir off v :: s.sched }

/-- The TX engine active, in the state of a state code, and due to step next. -/
def State.withTxStep (s : State) (st : TxState) : State :=
  { s with
    regs := { s.regs with moder := setBit s.regs.moder 1 }
    tx := { s.tx with state := st }
    txDue := true
    sched := .txTurn :: s.sched }

/-- The RX engine active, in the state of a state code, and due to step next. -/
def State.withRxStep (s : State) (st : RxState) : State :=
  { s with
    regs := { s.regs with moder := setBit s.regs.moder 0 }
    rx := { s.rx with state := st }
    rxDue := true
    sched := .rxTurn :: s.sched }

/-- The TX state of a state code (R142). -/
def txStateOf (st : BitVec 2) : TxState :=
  if st = 0b00 then .idle else if st = 0b01 then .waitBd else if st = 0b10 then .readFifo else .transmit

/-- The RX state of a state code (R142). -/
def rxStateOf (st : BitVec 2) : RxState :=
  if st = 0b00 then .idle else if st = 0b01 then .waitBd else if st = 0b10 then .recv else .writeFifo

/-- The machine with a coded operation as what its next step runs. -/
def State.withCode (s : State) (c : Code) : State :=
  match c with
  | .read off => s.withPortAccess .read off 0
  | .write off v => s.withPortAccess .write off v
  | .tx st => s.withTxStep (txStateOf st)
  | .rx st => s.withRxStep (rxStateOf st)

end Sys2Proof.Machine
end

