-- ==== Sys2Proof/Machine/Step.lean ====
section
/-! DEFINITION. One step of the machine: what the fetch finds is run (00_scope.md R14). -/

namespace Sys2Proof.Machine

/-- One step: a next state, a fault or a refusal. -/
def step (s : State) : Host.Outcome State Fault Refusal :=
  match fetch s with
  | .run i t => exec i t
  | .other t => .next t
  | .refuse r => .refused r
  | .halt f => .fault f

/-- `s` with the operation of a table word as what its next step runs: an access code at the register port,
or the TX engine active, in that state and due to step (log 3, log 10). A word that codes nothing changes nothing. -/
def State.withFetchWord (s : State) (nbits w : Nat) : State :=
  match Code.ofWord (if nbits ≤ 8 then .txStep else .mmio) w with
  | .ok c => s.withCode c
  | .error _ => s

end Sys2Proof.Machine
end

