-- ==== Sys2Proof/Safety.lean ====
section
/-! DEFINITION. What claims call a sound state and a halted machine, in the spec's own terms. -/

namespace Sys2Proof

/-- The ring geometry under which R268 keeps the TX pointer inside the RAM: an even number of words that a word
index can name, and the default wrap threshold. -/
def Config.defaultRing (cfg : Config) : Prop :=
  2 ≤ cfg.ringWords ∧ cfg.ringWords % 2 = 0 ∧ cfg.ringWords ≤ 2 ^ 32 ∧ cfg.wrapLimit = cfg.ringWords - 2

end Sys2Proof

namespace Sys2Proof.Machine

/-- No agent takes a further step (R64). -/
def State.halted (s : State) : Prop := s.stop = true ∨ s.fault.isSome = true

/-- What every step keeps. -/
structure State.Inv (s : State) : Prop where
  /-- memory is in canonical form (R100) -/
  memCanonical : Memory.wf s.mem = true
  /-- the descriptor RAM has `RING_WORDS` words (R54) -/
  bdSize : s.bd.length = s.cfg.ringWords
  /-- MODER.RST reads 0 (R184) -/
  moderRstZero : moderRst s.regs.moder = false
  /-- only TXB, TXE, RXB and BUSY are ever set in INT_SOURCE (R35) -/
  intSourceBits : s.regs.intSource &&& ~~~0x17#32 = 0
  /-- the line is asserted only while a source bit is set (R188) -/
  irqHasSource : s.irq = true → s.regs.intSource ≠ 0
  /-- a TX sink that is not available holds nothing (R354) -/
  txsNeedsSink : s.cfg.txSinkAvailable = false → s.txs = []
  /-- a socket that is not available has received nothing (R362) -/
  sockqNeedsSource : s.cfg.rxSourceAvailable = false → s.sockq = []
  /-- TX stages whole words (R101) -/
  txSentWords : s.tx.sent % 4 = 0
  /-- every byte counted as staged is staged (R266) -/
  txSentStaged : s.tx.sent ≤ s.tx.fifo.length
  /-- TRANSMIT finds the whole frame staged (R266) -/
  txTransmitStaged : s.tx.state = .transmit → s.tx.len.toNat ≤ s.tx.sent
  /-- RX writes whole words (R101) -/
  rxDoneWords : s.rx.done % 4 = 0
  /-- no frame is longer than `MAX_FRAME` (R306, R307) -/
  rxLenBounded : s.rx.len ≤ s.cfg.maxFrame
  /-- WRITE_FIFO finds the whole frame staged (R306, R307) -/
  rxFrameStaged : s.rx.state = .writeFifo → s.rx.len ≤ s.rx.fifo.length

/-- The TX pointer is even and names a descriptor inside the RAM (R268). -/
def State.TxPointerInRam (s : State) : Prop :=
  s.tx.idx.toNat % 2 = 0 ∧ s.tx.idx.toNat + 1 < s.cfg.ringWords

/-- The state the device rests in after an outcome: a raised fault leaves everything as before the step and is
recorded (R414). -/
def restAfter (s : State) (r : Result) : State :=
  match r with
  | .next t => t
  | .fault (.raised f) => s.afterFault f
  | .fault _ => s
  | .refused _ => s

end Sys2Proof.Machine
end

