-- ==== Sys2Proof/Certificates/Slice0/Obligations.lean ====
section
/-! DEFINITION. The statements for the provers, from the numbered rules of spec/. The first part names what
the statements speak of: which operation reads or writes which register, and runs of one engine's steps. -/

namespace Sys2Proof.Claims

open Sys2Proof.Machine

/-- The read of a register (R151). -/
def readOf : Reg → Instr
  | .moder => .rdModer
  | .intSource => .rdIntSource
  | .intMask => .rdIntMask
  | .ipgt => .rdIpgt
  | .ipgr1 => .rdIpgr1
  | .ipgr2 => .rdIpgr2
  | .packetLen => .rdPacketLen
  | .collConf => .rdCollConf
  | .txBdNum => .rdTxBdNum
  | .ctrlModer => .rdCtrlModer
  | .miiModer => .rdMiiModer
  | .miiCommand => .rdMiiCommand
  | .miiAddress => .rdMiiAddress
  | .miiTxData => .rdMiiTxData
  | .miiRxData => .rdMiiRxData
  | .miiStatus => .rdMiiStatus
  | .macAddr0 => .rdMacAddr0
  | .macAddr1 => .rdMacAddr1
  | .hash0 => .rdHash0
  | .hash1 => .rdHash1

/-- The write of a register (R151). -/
def writeOf (r : Reg) (v : Word) : Instr :=
  match r with
  | .moder => .wrModer v
  | .intSource => .wrIntSource v
  | .intMask => .wrIntMask v
  | .ipgt => .wrIpgt v
  | .ipgr1 => .wrIpgr1 v
  | .ipgr2 => .wrIpgr2 v
  | .packetLen => .wrPacketLen v
  | .collConf => .wrCollConf v
  | .txBdNum => .wrTxBdNum v
  | .ctrlModer => .wrCtrlModer v
  | .miiModer => .wrMiiModer v
  | .miiCommand => .wrMiiCommand v
  | .miiAddress => .wrMiiAddress v
  | .miiTxData => .wrMiiTxData v
  | .miiRxData => .wrMiiRxData v
  | .miiStatus => .wrMiiStatus v
  | .macAddr0 => .wrMacAddr0 v
  | .macAddr1 => .wrMacAddr1 v
  | .hash0 => .wrHash0 v
  | .hash1 => .wrHash1 v

/-- The window offset of a register (R32). -/
def offsetOf : Reg → BitVec 16
  | .moder => 0x00
  | .intSource => 0x04
  | .intMask => 0x08
  | .ipgt => 0x0C
  | .ipgr1 => 0x10
  | .ipgr2 => 0x14
  | .packetLen => 0x18
  | .collConf => 0x1C
  | .txBdNum => 0x20
  | .ctrlModer => 0x24
  | .miiModer => 0x28
  | .miiCommand => 0x2C
  | .miiAddress => 0x30
  | .miiTxData => 0x34
  | .miiRxData => 0x38
  | .miiStatus => 0x3C
  | .macAddr0 => 0x40
  | .macAddr1 => 0x44
  | .hash0 => 0x48
  | .hash1 => 0x4C

/-- The registers whose write has a side effect (R107). -/
def hasSideEffect (r : Reg) : Prop := r = .moder ∨ r = .intSource ∨ r = .txBdNum

/-- The reset value of a register in R32's table; the station-address registers have none. -/
def resetValue : Reg → Option Word
  | .moder => some 0x0000A000
  | .intSource => some 0x00000000
  | .intMask => some 0x00000000
  | .ipgt => some 0x00000012
  | .ipgr1 => some 0x0000000C
  | .ipgr2 => some 0x00000012
  | .packetLen => some 0x003C0600
  | .collConf => some 0x000F003F
  | .txBdNum => some 0x00000040
  | .ctrlModer => some 0x00000000
  | .miiModer => some 0x00000064
  | .miiCommand => some 0x00000000
  | .miiAddress => some 0x00000000
  | .miiTxData => some 0x00000000
  | .miiRxData => some 0x00000000
  | .miiStatus => some 0x00000000
  | .macAddr0 => none
  | .macAddr1 => none
  | .hash0 => some 0x00000000
  | .hash1 => some 0x00000000

/-- No stop was requested and no fault recorded (R64). -/
def Running (s : State) : Prop := s.stop = false ∧ s.fault = none

/-- A TX engine step of the table. -/
def IsTxStep (i : Instr) : Prop := i = .txIdle ∨ i = .txWaitBd ∨ i = .txReadFifo ∨ i = .txTransmit

/-- An RX engine step of the table. -/
def IsRxStep (i : Instr) : Prop :=
  i = .rxIdle ∨ i = .rxWaitBd ∨ i = .rxRecvFile ∨ i = .rxRecvSocket ∨ i = .rxWriteFifo

/-- `k` steps of the TX engine, each selected by `tx.state` (R260). -/
def txSteps : Nat → State → Result
  | 0, s => .next s
  | k + 1, s =>
    match exec (decodeTx (txCode s.tx.state)) s with
    | .next t => txSteps k t
    | .fault f => .fault f
    | .refused r => .refused r

/-- `k` steps of the RX engine, each selected by `rx.state` and `BACKEND` (R300). -/
def rxSteps : Nat → State → Result
  | 0, s => .next s
  | k + 1, s =>
    match exec (decodeRx s.cfg.backend (rxCode s.rx.state)) s with
    | .next t => rxSteps k t
    | .fault f => .fault f
    | .refused r => .refused r

/-- `ceil4(n) / 4`, the DMA words of a frame of `n` bytes (R11, R105). -/
def wordsOf (n : Nat) : Nat := (n + 3) / 4

/-- The READ_FIFO steps of a frame of `n` bytes (R464). -/
def readFifoSteps (cfg : Config) (n : Nat) : Nat :=
  max 1 (wordsOf n) + (if cfg.readFifoExtraTick = true ∧ 0 < n then 1 else 0)

/-- The bytes of system memory at `a, a + 1, … , a + n - 1`, addresses modulo 2^32. -/
def bytesAt (m : List Host.Cell) (a : Word) (n : Nat) : List Byte :=
  (List.range n).map fun j => Memory.read m (a + BitVec.ofNat 32 j).toNat

/-- An address is none of the `n` bytes at `a, a + 1, …`. -/
def Outside (a : Word) (n : Nat) (x : Word) : Prop := ∀ j < n, x ≠ a + BitVec.ofNat 32 j

/-- The words of the descriptor at a ring pointer. -/
def DescriptorAt (s : State) (idx w0 w1 : Word) : Prop :=
  s.bd[idx.toNat]? = some w0 ∧ s.bd[(idx + 1).toNat]? = some w1

/-- The transport accepts the frame of the TRANSMIT step at hand: an available file sink always does (R356);
an available socket does where the draw says so (R366). -/
def Accepts (s : State) : Prop :=
  s.cfg.txSinkAvailable = true ∧ (s.cfg.backend = .socket → Config.freeBit s.draws 0 = true)

/-- The mask bit R269 makes the relevant one, for the event whose own mask bit is `k`. -/
def TxEnabled (s : State) (k : Nat) : Prop :=
  match s.cfg.txIrqMaskPolicy with
  | .matching => s.regs.intMask.getLsbD k = true
  | .either => s.regs.intMask.getLsbD 0 = true ∨ s.regs.intMask.getLsbD 1 = true

/-- `w` with the bits of `ks` cleared. -/
def ClearedAt (ks : List Nat) (w w' : Word) : Prop := ∀ k, w'.getLsbD k = (w.getLsbD k && !ks.contains k)

/-- `w` with bit `k` set. -/
def SetAt (k : Nat) (w w' : Word) : Prop := ∀ j, w'.getLsbD j = (w.getLsbD j || j == k)

/-- The state a turn runs an engine's step in: the machine's, but for the model's own tick fields and draw counter. -/
def TickOf (s u : State) : Prop := u = { s with txDue := u.txDue, rxDue := u.rxDue, draws := u.draws }

/-- The next step is the one the TX engine's state selects. -/
def TxSteps (s : State) : Prop := ∃ u, TickOf s u ∧ step s = exec (decodeTx (txCode s.tx.state)) u

/-- The next step is the one the RX engine's state selects. -/
def RxSteps (s : State) : Prop := ∃ u, TickOf s u ∧ step s = exec (decodeRx s.cfg.backend (rxCode s.rx.state)) u

/-- The bytes a `RxFileRead` of `n` bytes finds at the cursor of a source (R353, R354). -/
def unread (src : RxSource) (s : State) : List Byte := (sourceBytes src s).drop (sourceCursor src s)

end Sys2Proof.Claims

open Sys2Proof Sys2Proof.Machine Sys2Proof.Claims

/-! ### Encoding -/

/-- R141 to R143, R151: for every geometry the codes fit and every operation well-formed in it, its number read in its
own format decodes to the operation, every operand with it: no bit of an encoding is dropped. -/
def Obligations.DecodeOfEncodeIsTheOperation : Prop :=
  ∀ (cfg : Config) (i : Instr), cfg.wf = true → i.wellFormed cfg = true →
    decode cfg (encodeFormat cfg i) (encode cfg i) = .ok i

/-- R143, R145, R147: every code decodes to one operation, which is well-formed and encodes to that code. -/
def Obligations.EveryCodeHasOneOperation : Prop :=
  ∀ (cfg : Config) (c : Code), cfg.wf = true →
    (decodeCode cfg c).wellFormed cfg = true ∧ encodeCode cfg (decodeCode cfg c) = c

/-- R143, its four cases in their order of priority, for reads and for writes. -/
def Obligations.OffsetsDecodeInOrderOfPriority : Prop :=
  ∀ (cfg : Config) (off : BitVec 16) (v : Word),
    (off.toNat % 4 ≠ 0 →
      decodeCode cfg (.read off) = .rdUnmapped off ∧ decodeCode cfg (.write off v) = .wrUnmapped off v) ∧
    (∀ r, off = offsetOf r →
      decodeCode cfg (.read off) = readOf r ∧ decodeCode cfg (.write off v) = writeOf r v) ∧
    (off.toNat % 4 = 0 → (∀ r, off ≠ offsetOf r) →
      (cfg.bdBase ≤ off.toNat ∧ off.toNat + 4 ≤ cfg.bdBase + 4 * cfg.ringWords →
        decodeCode cfg (.read off) = .rdBd ((off.toNat - cfg.bdBase) >>> 2) ∧
        decodeCode cfg (.write off v) = .wrBd ((off.toNat - cfg.bdBase) >>> 2) v) ∧
      (¬ (cfg.bdBase ≤ off.toNat ∧ off.toNat + 4 ≤ cfg.bdBase + 4 * cfg.ringWords) →
        decodeCode cfg (.read off) = .rdUnmapped off ∧ decodeCode cfg (.write off v) = .wrUnmapped off v))

/-- R151 and the codes of 95_test_vectors.md, a few words written out. That a write's data value stands in bits 55:24
and that a number with a bit above its code is rejected is the model's own layout (DESIGN CHOICE, log 10). -/
def Obligations.WordsOfTheOperationMapDecode : Prop :=
  decode Config.standard .mmio 0x00000 = .ok .rdModer ∧
  decode Config.standard .mmio (0xA5A5A5A5 * 2 ^ 24 + 0x1001C) = .ok (.wrCollConf 0xA5A5A5A5) ∧
  decode Config.standard .mmio 0x00600 = .ok (.rdBd 0x80) ∧
  decode Config.standard .mmio (0xDEADBEEF * 2 ^ 24 + 0x10414) = .ok (.wrBd 5 0xDEADBEEF) ∧
  decode Config.standard .mmio 0x00402 = .ok (.rdUnmapped 0x402) ∧
  decode Config.standard .txStep 0b10 = .ok .txReadFifo ∧
  decode { Config.standard with backend := .socket } .rxStep 0b10 = .ok .rxRecvSocket ∧
  decode Config.standard .rxStep 0b100 = .error .bitsAboveStateCode

/-! ### Register interface -/

/-- R107, R184, R187, R189, R191 and the other register reads: the stored value is answered, and nothing
else changes (answers stand in `busOut`, log 9). -/
def Obligations.RegisterReadAnswersStoredValue : Prop :=
  ∀ (r : Reg) (s : State), ∃ t, exec (readOf r) s = .next t ∧
    t.busOut = s.busOut ++ [s.regs.get r] ∧ t = { s with busOut := t.busOut }

/-- R33, R107, R190, R192 and the other plain register writes: all 32 bits are stored, and nothing else
changes. -/
def Obligations.PlainRegisterWriteStoresAllBits : Prop :=
  ∀ (r : Reg) (v : Word) (s : State), ¬ hasSideEffect r → ∃ t, exec (writeOf r v) s = .next t ∧
    t.regs.get r = v ∧ (∀ q, q ≠ r → t.regs.get q = s.regs.get q) ∧ t = { s with regs := t.regs }

/-- R33, R35. A write and then a read at one offset, as two steps of the machine, answer the value written, but for
INT_SOURCE, where a write only clears, and for MODER after a write with RST = 1, where the reset value is answered.
And a register keeps its value over every operation but its own write and a device reset; INT_SOURCE is set by the
engines' steps alone. -/
def Obligations.RegistersHoldTheValueLastWritten : Prop :=
  (∀ (r : Reg) (v w : Word) (s : State) (rest : List Slot), Running s →
    ¬ (s.cfg.backend = .socket ∧ s.cfg.socketSetupFatal = true) →
    s.sched = .port .write (offsetOf r) v :: .port .read (offsetOf r) w :: rest →
    ∃ t u, step s = .next t ∧ step t = .next u ∧
      u.busOut = s.busOut ++
        [if r = .intSource then s.regs.intSource &&& ~~~v
         else if r = .moder ∧ v.getLsbD 11 = true then 0x0000A000 else v]) ∧
  (∀ (i : Instr) (s t : State) (r : Reg), exec i s = .next t →
    (∀ v, i ≠ writeOf r v) → (∀ v, i = .wrModer v → v.getLsbD 11 = false) →
    (r ≠ .intSource → t.regs.get r = s.regs.get r) ∧
    (¬ IsTxStep i → ¬ IsRxStep i → t.regs.get r = s.regs.get r))

/-- R185 (RST = 0), R186: MODER is stored; each enable bit that goes from 0 to 1 restarts its engine, and
nothing else changes. That a restarted engine has no step left to take in the current tick is R463, in the
model's own fields `txDue` and `rxDue` (log 3). -/
def Obligations.ModerWriteActsOnEnableEdges : Prop :=
  ∀ (v : Word) (s : State), v.getLsbD 11 = false → ∃ t, exec (.wrModer v) s = .next t ∧
    t = { s with
      regs := { s.regs with moder := v }, tx := t.tx, rx := t.rx, txDue := t.txDue, rxDue := t.rxDue } ∧
    (s.regs.moder.getLsbD 1 = false ∧ v.getLsbD 1 = true →
      t.txDue = false ∧ t.tx = { s.tx with
        state := .idle, sent := 0, left := 0, idx := if s.cfg.reenableResetsIndex = true then 0 else s.tx.idx }) ∧
    (¬ (s.regs.moder.getLsbD 1 = false ∧ v.getLsbD 1 = true) → t.txDue = s.txDue ∧ t.tx = s.tx) ∧
    (s.regs.moder.getLsbD 0 = false ∧ v.getLsbD 0 = true →
      t.rxDue = false ∧ t.rx = { s.rx with
        state := .idle, done := 0, len := 0, error := false,
        idx := if s.cfg.reenableResetsIndex = true then 2 * s.regs.txBdNum else s.rx.idx }) ∧
    (¬ (s.regs.moder.getLsbD 0 = false ∧ v.getLsbD 0 = true) → t.rxDue = s.rxDue ∧ t.rx = s.rx)

/-- R185 (RST = 1), R440, R69 to R73, R351: the reset supersedes the write's other bits; what R440 resets is
reset, the rest is kept. Where the socket setup is fatal the write has no next state: the device rests as before
it, with the fault recorded (R414; the agent recorded is log 8). -/
def Obligations.ModerWriteWithResetBitResetsTheDevice : Prop :=
  ∀ (v : Word) (s : State), v.getLsbD 11 = true →
    (¬ (s.cfg.backend = .socket ∧ s.cfg.socketSetupFatal = true) → ∃ t, exec (.wrModer v) s = .next t ∧
      (∀ r x, resetValue r = some x → t.regs.get r = x) ∧
      t.regs.macAddr0 = s.regs.macAddr0 ∧ t.regs.macAddr1 = s.regs.macAddr1 ∧
      t.bd.length = s.cfg.ringWords ∧ (s.cfg.bdRamReset = .zero → ∀ w ∈ t.bd, w = 0) ∧
      t.tx.state = .idle ∧ t.tx.idx = 0 ∧ t.tx.sent = 0 ∧ t.tx.left = 0 ∧
      t.rx.state = .idle ∧ t.rx.idx = 0x80 ∧ t.rx.done = 0 ∧ t.rx.len = 0 ∧ t.rx.error = false ∧
      t.irq = false ∧
      (s.cfg.backend = .file → t.txs = [] ∧ t.rxOff = 0 ∧ t.lbOff = 0 ∧ t.sockq = s.sockq) ∧
      (s.cfg.backend = .socket → t.sockq = [] ∧ t.txs = s.txs ∧ t.rxOff = s.rxOff ∧ t.lbOff = s.lbOff) ∧
      t = { s with
        regs := t.regs, bd := t.bd, tx := t.tx, rx := t.rx, irq := t.irq, txs := t.txs, rxOff := t.rxOff,
        lbOff := t.lbOff, sockq := t.sockq, draws := t.draws }) ∧
    (s.cfg.backend = .socket → s.cfg.socketSetupFatal = true →
      exec (.wrModer v) s = .fault (.raised (.backendSetupFailed .bus)) ∧
      (s.fault = none →
        restAfter s (exec (.wrModer v) s) =
          { s with
            fault := some (.backendSetupFailed .bus)
            history := s.history ++ [.fault (.backendSetupFailed .bus)] }))

/-- R188, R407, with the access's code: exactly the bits written as 1 are cleared; the line falls when INT_SOURCE goes
from nonzero to zero and otherwise stays; nothing else changes. -/
def Obligations.IntSourceWriteClearsWrittenBits : Prop :=
  ∀ (v : Word) (s : State), decodeCode s.cfg (.write 0x04 v) = .wrIntSource v ∧
    ∃ t, exec (.wrIntSource v) s = .next t ∧
    (∀ k, t.regs.intSource.getLsbD k = (s.regs.intSource.getLsbD k && !v.getLsbD k)) ∧
    (s.regs.intSource ≠ 0 ∧ t.regs.intSource = 0 → t.irq = false) ∧
    (¬ (s.regs.intSource ≠ 0 ∧ t.regs.intSource = 0) → t.irq = s.irq) ∧
    (∀ q, q ≠ .intSource → t.regs.get q = s.regs.get q) ∧
    t = { s with regs := t.regs, irq := t.irq }

/-- R202: TX_BD_NUM is stored, and `rx.idx` becomes `(2 * v) mod 2^32` whatever the RX engine is doing; nothing else
changes, and the write itself never faults. A pointer it puts out of range makes the RX engine's next WAIT_BD step
fault, on the word index that lies outside; any other pointer does not. -/
def Obligations.TxBdNumWriteMovesTheRxPointer : Prop :=
  ∀ (v : Word) (s : State), decodeCode s.cfg (.write 0x20 v) = .wrTxBdNum v ∧
    ∃ t, exec (.wrTxBdNum v) s = .next t ∧
    t.regs.txBdNum = v ∧ (∀ q, q ≠ .txBdNum → t.regs.get q = s.regs.get q) ∧
    t.rx.idx.toNat = 2 * v.toNat % 2 ^ 32 ∧
    t = { s with regs := t.regs, rx := { s.rx with idx := t.rx.idx } } ∧
    (s.bd.length = s.cfg.ringWords →
      (s.cfg.ringWords ≤ 2 * v.toNat % 2 ^ 32 →
        exec .rxWaitBd t = .fault (.raised (.bdIndexOutOfRange .rx (2 * v.toNat % 2 ^ 32)))) ∧
      (2 * v.toNat % 2 ^ 32 + 1 = s.cfg.ringWords →
        exec .rxWaitBd t = .fault (.raised (.bdIndexOutOfRange .rx s.cfg.ringWords))) ∧
      (2 * v.toNat % 2 ^ 32 + 1 < s.cfg.ringWords → ∃ u, exec .rxWaitBd t = .next u))

/-- R54, R225, R226: a descriptor word written is the word read, every other word stays, and neither access
changes anything else. -/
def Obligations.DescriptorWordReadAfterWrite : Prop :=
  ∀ (i : Nat) (v : Word) (s : State), s.bd.length = s.cfg.ringWords → i < s.cfg.ringWords →
    (∃ w u, s.bd[i]? = some w ∧ exec (.rdBd i) s = .next u ∧ u.busOut = s.busOut ++ [w] ∧
      u = { s with busOut := u.busOut }) ∧
    (∃ t u, exec (.wrBd i v) s = .next t ∧ t = { s with bd := t.bd } ∧
      (∀ j, j ≠ i → t.bd[j]? = s.bd[j]?) ∧ exec (.rdBd i) t = .next u ∧ u.busOut = s.busOut ++ [v])

/-- R182, R183, R403: an access whose offset decodes to nothing is the unmapped access; an unmapped read
answers 0, an unmapped write is ignored, both are reported, and nothing else changes. -/
def Obligations.UnmappedAccessIsReportedOnly : Prop :=
  ∀ (off : BitVec 16) (v : Word) (s : State),
    (s.cfg.unmapped off.toNat = true →
      decodeCode s.cfg (.read off) = .rdUnmapped off ∧ decodeCode s.cfg (.write off v) = .wrUnmapped off v) ∧
    (∃ t, exec (.rdUnmapped off) s = .next t ∧ t.busOut = s.busOut ++ [0] ∧
      t.history = s.history ++ [.illegalAccess .read off] ∧
      t = { s with busOut := t.busOut, history := t.history }) ∧
    (∃ t, exec (.wrUnmapped off v) s = .next t ∧ t.history = s.history ++ [.illegalAccess .write off] ∧
      t = { s with history := t.history })

/-! ### Transmit engine -/

/-- R261, R301: the IDLE steps advance to WAIT_BD and change nothing else. -/
def Obligations.IdleStepsAdvanceToWaitBd : Prop :=
  ∀ s : State,
    decodeCode s.cfg (.tx 0b00) = .txIdle ∧ decodeCode s.cfg (.rx 0b00) = .rxIdle ∧
    (∃ t, exec .txIdle s = .next t ∧ t.tx.state = .waitBd ∧ t = { s with tx := { s.tx with state := t.tx.state } }) ∧
    (∃ t, exec .rxIdle s = .next t ∧ t.rx.state = .waitBd ∧ t = { s with rx := { s.rx with state := t.rx.state } })

/-- R262 (RD = 0): the TX engine polls; only the snapshot changes. -/
def Obligations.TxWaitBdPollsUntilReady : Prop :=
  ∀ (s : State) (w0 w1 : Word), DescriptorAt s s.tx.idx w0 w1 → w0.getLsbD 15 = false →
    ∃ t, exec .txWaitBd s = .next t ∧ t.tx.bd = w0 ∧ t.tx.buf = w1 ∧
      t = { s with tx := { s.tx with bd := t.tx.bd, buf := t.tx.buf } }

/-- R262 (RD = 1), R263 to R265: the descriptor is taken, its error bits cleared in the snapshot only, the
derived values computed, and its length logged in the FILE variant. -/
def Obligations.TxWaitBdTakesReadyDescriptor : Prop :=
  ∀ (s : State) (w0 w1 : Word), DescriptorAt s s.tx.idx w0 w1 → w0.getLsbD 15 = true →
    ∃ t, exec .txWaitBd s = .next t ∧
      t.tx.state = .readFifo ∧ t.tx.buf = w1 ∧ t.tx.len.toNat = w0.toNat / 2 ^ 16 ∧
      t.tx.left = w0.toNat / 2 ^ 16 ∧ t.tx.sent = 0 ∧ ClearedAt [0, 1, 2, 3, 4, 5, 6, 7, 8] w0 t.tx.bd ∧
      t.tx.minLen.toNat =
        (if w0.getLsbD 12 = true ∨ s.regs.moder.getLsbD 15 = true then s.regs.packetLen.toNat / 2 ^ 16
         else w0.toNat / 2 ^ 16) ∧
      t.tx.maxLen.map BitVec.toNat =
        (if s.regs.moder.getLsbD 14 = true then none else some (s.regs.packetLen.toNat % 2 ^ 16)) ∧
      t.tx.needCrc = (s.regs.moder.getLsbD 13 || w0.getLsbD 11) ∧ t.tx.dlyCrc = s.regs.moder.getLsbD 12 ∧
      t.tx.idx = s.tx.idx ∧ t.tx.fifo = s.tx.fifo ∧
      t.txs = (if s.cfg.backend = .file ∧ s.cfg.txSinkAvailable = true
        then s.txs ++ encLen s.cfg (w0.toNat / 2 ^ 16) else s.txs) ∧
      t = { s with tx := t.tx, txs := t.txs }

/-- R13, R262, R302, R414: a WAIT_BD step of either engine faults on a pointer outside the descriptor RAM, on
word 0 before word 1. -/
def Obligations.WaitBdFaultsOutsideTheRam : Prop :=
  ∀ s : State, s.bd.length < 2 ^ 32 →
    (s.bd.length ≤ s.tx.idx.toNat →
      exec .txWaitBd s = .fault (.raised (.bdIndexOutOfRange .tx s.tx.idx.toNat))) ∧
    (s.tx.idx.toNat + 1 = s.bd.length →
      exec .txWaitBd s = .fault (.raised (.bdIndexOutOfRange .tx (s.tx.idx.toNat + 1)))) ∧
    (s.bd.length ≤ s.rx.idx.toNat →
      exec .rxWaitBd s = .fault (.raised (.bdIndexOutOfRange .rx s.rx.idx.toNat))) ∧
    (s.rx.idx.toNat + 1 = s.bd.length →
      exec .rxWaitBd s = .fault (.raised (.bdIndexOutOfRange .rx (s.rx.idx.toNat + 1))))

/-- R266, R102: with bytes left, one word is read, its four bytes are staged in address order, and the step that
stages the last word moves to TRANSMIT unless READFIFO_EXTRA_TICK is set; with nothing left, nothing is read and the
engine moves to TRANSMIT. No byte of memory changes. R111, R14: where the memory does not admit the word, the engine
has no step, and everything stays as it is (which words those are is a parameter of the model, log 5). -/
def Obligations.TxReadFifoStagesOneWordUntilNothingIsLeft : Prop :=
  ∀ s : State,
    (s.tx.sent < s.tx.len.toNat → s.tx.sent ≤ s.tx.fifo.length →
      (txDmaAddr s).toNat % 4 = 0 → admitsWord s.cfg (txDmaAddr s) = true →
      ∃ t, exec .txReadFifo s = .next t ∧
        t.tx.sent = s.tx.sent + 4 ∧ t.tx.left = s.tx.len.toNat - (s.tx.sent + 4) ∧
        t.tx.fifo.take (s.tx.sent + 4) = s.tx.fifo.take s.tx.sent ++ bytesAt s.mem (txDmaAddr s) 4 ∧
        (s.tx.len.toNat ≤ s.tx.sent + 4 ∧ s.cfg.readFifoExtraTick = false → t.tx.state = .transmit) ∧
        (¬ (s.tx.len.toNat ≤ s.tx.sent + 4 ∧ s.cfg.readFifoExtraTick = false) → t.tx.state = s.tx.state) ∧
        (∃ w, wordBytes w = bytesAt s.mem (txDmaAddr s) 4 ∧
          t.history = s.history ++ [.memRead .tx (txDmaAddr s) w]) ∧
        t = { s with
          tx := { s.tx with sent := t.tx.sent, left := t.tx.left, fifo := t.tx.fifo, state := t.tx.state }
          history := t.history
          draws := t.draws }) ∧
    (s.tx.len.toNat ≤ s.tx.sent → ∃ t, exec .txReadFifo s = .next t ∧ t.tx.state = .transmit ∧
      t = { s with tx := { s.tx with state := t.tx.state } }) ∧
    (s.tx.sent < s.tx.len.toNat → (txDmaAddr s).toNat % 4 = 0 → admitsWord s.cfg (txDmaAddr s) = false →
      exec .txReadFifo s = .next s)

/-- R104, R460, R414: a buffer address that is no multiple of 4 faults at the first DMA access, in either engine;
a TX frame with nothing left to read makes no access, whatever its buffer: only the engine's state changes. -/
def Obligations.MisalignedBufferFaultsBothEngines : Prop :=
  ∀ s : State,
    (s.tx.sent % 4 = 0 → s.tx.buf.toNat % 4 ≠ 0 → s.tx.sent < s.tx.len.toNat →
      exec .txReadFifo s = .fault (.raised (.misalignedBuffer .tx (s.tx.buf + BitVec.ofNat 32 s.tx.sent)))) ∧
    (s.tx.len.toNat ≤ s.tx.sent → ∃ t, exec .txReadFifo s = .next t ∧ t.tx.state = .transmit ∧
      t = { s with tx := { s.tx with state := t.tx.state } }) ∧
    (s.rx.done % 4 = 0 → s.rx.buf.toNat % 4 ≠ 0 →
      exec .rxWriteFifo s = .fault (.raised (.misalignedBuffer .rx (s.rx.buf + BitVec.ofNat 32 s.rx.done))))

/-- R267 (`n = tx.len`), R356, R366, R404, R406: the frame is sent, the descriptor written back with RD cleared,
TXB set, the line asserted where R269's mask bit and the descriptor's IRQ bit are set, and the pointer advanced. -/
def Obligations.TxTransmitSendsTheFrame : Prop :=
  ∀ s : State, s.tx.idx.toNat < s.bd.length → s.tx.len.toNat ≤ s.tx.fifo.length → Accepts s →
    ∃ t, exec .txTransmit s = .next t ∧
      ClearedAt [15] s.tx.bd t.tx.bd ∧ t.bd[s.tx.idx.toNat]? = some t.tx.bd ∧
      (∀ j, j ≠ s.tx.idx.toNat → t.bd[j]? = s.bd[j]?) ∧
      SetAt 0 s.regs.intSource t.regs.intSource ∧ (∀ q, q ≠ .intSource → t.regs.get q = s.regs.get q) ∧
      (TxEnabled s 0 ∧ s.tx.bd.getLsbD 14 = true → t.irq = true ∧
        t.history = s.history ++ [.frameSent (s.tx.fifo.take s.tx.len.toNat), .irqAssert]) ∧
      (¬ (TxEnabled s 0 ∧ s.tx.bd.getLsbD 14 = true) → t.irq = s.irq ∧
        t.history = s.history ++ [.frameSent (s.tx.fifo.take s.tx.len.toNat)]) ∧
      t.tx.idx = (if s.tx.bd.getLsbD 13 = true ∨ s.cfg.wrapLimit ≤ s.tx.idx.toNat then 0 else s.tx.idx + 2) ∧
      t.tx.state = .waitBd ∧
      (s.cfg.backend = .file → t.txs = s.txs ++ s.tx.fifo.take s.tx.len.toNat ∧ t.wireOut = s.wireOut) ∧
      (s.cfg.backend = .socket → t.txs = s.txs ∧ t.wireOut = s.wireOut ++ [s.tx.fifo.take s.tx.len.toNat]) ∧
      t = { s with
        regs := t.regs, bd := t.bd, irq := t.irq, txs := t.txs, wireOut := t.wireOut, history := t.history,
        draws := t.draws, tx := { s.tx with bd := t.tx.bd, idx := t.tx.idx, state := t.tx.state } }

/-- R267 (short write), R356, R366: nothing is sent, RD and LC are cleared, TXE is set, and there is no retry.
A frame of length 0 is no short write: it sets TXB. -/
def Obligations.TxTransmitShortWrite : Prop :=
  ∀ s : State, s.tx.idx.toNat < s.bd.length → ¬ Accepts s →
    ∃ t, exec .txTransmit s = .next t ∧
      (s.tx.len ≠ 0 →
        ClearedAt [2, 15] s.tx.bd t.tx.bd ∧ SetAt 1 s.regs.intSource t.regs.intSource ∧
        (TxEnabled s 1 ∧ s.tx.bd.getLsbD 14 = true → t.irq = true ∧ t.history = s.history ++ [.irqAssert]) ∧
        (¬ (TxEnabled s 1 ∧ s.tx.bd.getLsbD 14 = true) → t.irq = s.irq ∧ t.history = s.history)) ∧
      (s.tx.len = 0 →
        ClearedAt [15] s.tx.bd t.tx.bd ∧ SetAt 0 s.regs.intSource t.regs.intSource ∧
        (TxEnabled s 0 ∧ s.tx.bd.getLsbD 14 = true → t.irq = true ∧ t.history = s.history ++ [.irqAssert]) ∧
        (¬ (TxEnabled s 0 ∧ s.tx.bd.getLsbD 14 = true) → t.irq = s.irq ∧ t.history = s.history)) ∧
      t.bd[s.tx.idx.toNat]? = some t.tx.bd ∧ (∀ j, j ≠ s.tx.idx.toNat → t.bd[j]? = s.bd[j]?) ∧
      (∀ q, q ≠ .intSource → t.regs.get q = s.regs.get q) ∧
      t.tx.idx = (if s.tx.bd.getLsbD 13 = true ∨ s.cfg.wrapLimit ≤ s.tx.idx.toNat then 0 else s.tx.idx + 2) ∧
      t.tx.state = .waitBd ∧
      t = { s with
        regs := t.regs, bd := t.bd, irq := t.irq, history := t.history, draws := t.draws,
        tx := { s.tx with bd := t.tx.bd, idx := t.tx.idx, state := t.tx.state } }

/-- R268: the TX ring advance, and that with the default threshold (and an even RING_WORDS, as the default is) it
stays even and inside the descriptor RAM. -/
def Obligations.NextTxWrapsToWordZero : Prop :=
  ∀ (cfg : Config) (idx : Word) (wr : Bool),
    (wr = true ∨ cfg.wrapLimit ≤ idx.toNat → nextTx cfg idx wr = 0) ∧
    (¬ (wr = true ∨ cfg.wrapLimit ≤ idx.toNat) → (nextTx cfg idx wr).toNat = (idx.toNat + 2) % 2 ^ 32) ∧
    (cfg.defaultRing → idx.toNat % 2 = 0 → idx.toNat + 1 < cfg.ringWords →
      (nextTx cfg idx wr).toNat % 2 = 0 ∧ (nextTx cfg idx wr).toNat ≤ cfg.ringWords - 2)

/-- R270, R273, with a memory that admits every address: from the WAIT_BD step that takes a ready descriptor, after
the READ_FIFO steps of R464 the engine is in TRANSMIT, and the frame it will hand to the transport is the memory at
the buffer, byte for byte. -/
def Obligations.TxFrameIsTheBufferInMemory : Prop :=
  ∀ (s : State) (w0 w1 : Word), s.tx.state = .waitBd → DescriptorAt s s.tx.idx w0 w1 → w0.getLsbD 15 = true →
    w1.toNat % 4 = 0 → s.cfg.memHoles = [] →
    ∃ t, txSteps (1 + readFifoSteps s.cfg (w0.toNat / 2 ^ 16)) s = .next t ∧
      t.tx.state = .transmit ∧ txFrame t = bytesAt s.mem w1 (w0.toNat / 2 ^ 16) ∧
      t = { s with tx := t.tx, txs := t.txs, history := t.history, draws := t.draws }

/-- R273, R270, R267 in the FILE variant with an available sink and a memory that admits every address (the SOCKET
variant and an unavailable sink are in `TxTransmitSendsTheFrame` and `TxTransmitShortWrite`): a ready descriptor is
sent and written back at the `(1 + READ_FIFO steps + 1)`-th TX step, and its record is in the TX stream. -/
def Obligations.TxDescriptorIsSentAndWrittenBack : Prop :=
  ∀ (s : State) (w0 w1 : Word), s.tx.state = .waitBd → DescriptorAt s s.tx.idx w0 w1 → w0.getLsbD 15 = true →
    w1.toNat % 4 = 0 → s.cfg.memHoles = [] → s.cfg.backend = .file → s.cfg.txSinkAvailable = true →
    ∃ t w, txSteps (1 + readFifoSteps s.cfg (w0.toNat / 2 ^ 16) + 1) s = .next t ∧
      t.txs = s.txs ++ encLen s.cfg (w0.toNat / 2 ^ 16) ++ bytesAt s.mem w1 (w0.toNat / 2 ^ 16) ∧
      t.bd[s.tx.idx.toNat]? = some w ∧ ClearedAt [0, 1, 2, 3, 4, 5, 6, 7, 8, 15] w0 w ∧
      (∀ j, j ≠ s.tx.idx.toNat → t.bd[j]? = s.bd[j]?) ∧
      SetAt 0 s.regs.intSource t.regs.intSource ∧ t.tx.state = .waitBd ∧ t.mem = s.mem

/-! ### Receive engine -/

/-- R302 (RD = 1), R303: the descriptor is taken, bits 7:0 cleared in the snapshot only, and the source chosen by
LOOPBCK. -/
def Obligations.RxWaitBdTakesReadyDescriptor : Prop :=
  ∀ (s : State) (w0 w1 : Word), DescriptorAt s s.rx.idx w0 w1 → w0.getLsbD 15 = true →
    ∃ t, exec .rxWaitBd s = .next t ∧
      t.rx.state = .recv ∧ t.rx.buf = w1 ∧ ClearedAt [0, 1, 2, 3, 4, 5, 6, 7] w0 t.rx.bd ∧
      (s.regs.moder.getLsbD 7 = true → t.rx.src = .loopback) ∧
      (s.regs.moder.getLsbD 7 = false → t.rx.src = .rxFile) ∧
      t = { s with rx := { s.rx with bd := t.rx.bd, buf := t.rx.buf, src := t.rx.src, state := t.rx.state } }

/-- R302 (RD = 0), R304, R305: with RXEN = 0 the engine drops to IDLE; with RXEN = 1 it stays, and in the SOCKET
variant a pending frame is dropped, BUSY set and the line asserted where BUSY is masked in. -/
def Obligations.RxWaitBdWithoutReadyDescriptor : Prop :=
  ∀ (s : State) (w0 w1 : Word), DescriptorAt s s.rx.idx w0 w1 → w0.getLsbD 15 = false →
    (s.regs.moder.getLsbD 0 = false →
      exec .rxWaitBd s = .next { s with rx := { s.rx with bd := w0, buf := w1, state := .idle } }) ∧
    (s.regs.moder.getLsbD 0 = true → s.cfg.backend = .file ∨ s.sockq = [] →
      exec .rxWaitBd s = .next { s with rx := { s.rx with bd := w0, buf := w1 } }) ∧
    (∀ f q, s.regs.moder.getLsbD 0 = true → s.cfg.backend = .socket → s.sockq = f :: q →
      ∃ t, exec .rxWaitBd s = .next t ∧ t.sockq = q ∧
        SetAt 4 s.regs.intSource t.regs.intSource ∧ (∀ r, r ≠ .intSource → t.regs.get r = s.regs.get r) ∧
        (s.regs.intMask.getLsbD 4 = true → t.irq = true ∧ t.history = s.history ++ [.irqAssert]) ∧
        (s.regs.intMask.getLsbD 4 = false → t.irq = s.irq ∧ t.history = s.history) ∧
        t = { s with
          rx := { s.rx with bd := w0, buf := w1 }, sockq := t.sockq, regs := t.regs, irq := t.irq,
          history := t.history })

/-- R306 (length read short), R357, R412: what was left of the source is read and the run is asked to stop; no
register, descriptor or memory changes. -/
def Obligations.RecvFileAtEndOfStreamStops : Prop :=
  ∀ s : State, (unread s.rx.src s).length < s.cfg.lenFieldBytes →
    ∃ t, exec .rxRecvFile s = .next t ∧ t.stop = true ∧ t.history = s.history ++ [.stopRequest] ∧
      sourceCursor s.rx.src t = sourceCursor s.rx.src s + (unread s.rx.src s).length ∧
      (s.rx.src = .rxFile → t.lbOff = s.lbOff) ∧ (s.rx.src = .loopback → t.rxOff = s.rxOff) ∧
      t = { s with stop := t.stop, history := t.history, rxOff := t.rxOff, lbOff := t.lbOff }

/-- R306 (`L < MIN_HDR_LEN`), R359: the record's stated bytes are skipped and the engine is back in WAIT_BD with
its descriptor untouched. -/
def Obligations.RecvFileSkipsRunts : Prop :=
  ∀ (s : State) (n : Nat), s.cfg.lenFieldBytes ≤ (unread s.rx.src s).length →
    n = decLen s.cfg ((unread s.rx.src s).take s.cfg.lenFieldBytes) → n < s.cfg.minHdrLen →
    ∃ t, exec .rxRecvFile s = .next t ∧ t.rx.state = .waitBd ∧
      sourceCursor s.rx.src t = sourceCursor s.rx.src s + s.cfg.lenFieldBytes + n ∧
      (s.rx.src = .rxFile → t.lbOff = s.lbOff) ∧ (s.rx.src = .loopback → t.rxOff = s.rxOff) ∧
      t = { s with rx := { s.rx with state := t.rx.state }, rxOff := t.rxOff, lbOff := t.lbOff }

/-- R306 (the record is read), R358: a whole payload is captured and the engine moves to WRITE_FIFO; a payload cut
short by the end of the source sets `rx.error` and the engine stays. -/
def Obligations.RecvFileCapturesTheRecord : Prop :=
  ∀ (s : State) (n : Nat), s.cfg.lenFieldBytes ≤ (unread s.rx.src s).length →
    n = decLen s.cfg ((unread s.rx.src s).take s.cfg.lenFieldBytes) → s.cfg.minHdrLen ≤ n → n ≤ s.cfg.maxFrame →
    ∃ t, exec .rxRecvFile s = .next t ∧
      (s.cfg.lenFieldBytes + n ≤ (unread s.rx.src s).length →
        t.rx.state = .writeFifo ∧ t.rx.len = n ∧ t.rx.done = 0 ∧ t.rx.error = s.rx.error ∧
        t.rx.fifo.take n = ((unread s.rx.src s).drop s.cfg.lenFieldBytes).take n ∧
        sourceCursor s.rx.src t = sourceCursor s.rx.src s + s.cfg.lenFieldBytes + n) ∧
      ((unread s.rx.src s).length < s.cfg.lenFieldBytes + n →
        t.rx = { s.rx with error := true } ∧
        sourceCursor s.rx.src t = sourceCursor s.rx.src s + (unread s.rx.src s).length) ∧
      t.rx.idx = s.rx.idx ∧ t.rx.bd = s.rx.bd ∧ t.rx.buf = s.rx.buf ∧ t.rx.src = s.rx.src ∧
      (s.rx.src = .rxFile → t.lbOff = s.lbOff) ∧ (s.rx.src = .loopback → t.rxOff = s.rxOff) ∧
      t = { s with rx := t.rx, rxOff := t.rxOff, lbOff := t.lbOff }

/-- R306, R307, R414: a received length above MAX_FRAME faults in either variant. -/
def Obligations.FrameAboveMaxFrameFaults : Prop :=
  ∀ s : State,
    (∀ n, s.cfg.lenFieldBytes ≤ (unread s.rx.src s).length →
      n = decLen s.cfg ((unread s.rx.src s).take s.cfg.lenFieldBytes) → s.cfg.minHdrLen ≤ n → s.cfg.maxFrame < n →
      exec .rxRecvFile s = .fault (.raised (.frameTooLarge .rx n))) ∧
    (∀ f q, s.sockq = f :: q → f ≠ [] → s.cfg.maxFrame < f.length →
      exec .rxRecvSocket s = .fault (.raised (.frameTooLarge .rx f.length)))

/-- R307, R51: a frame of at least six bytes is captured in promiscuous mode or where its first six bytes are the
station address, and otherwise discarded with no descriptor consumed, no flag set and no interrupt. -/
def Obligations.RecvSocketFiltersByAddress : Prop :=
  ∀ (s : State) (f : Frame) (q : List Frame), s.sockq = f :: q → 6 ≤ f.length → f.length ≤ s.cfg.maxFrame →
    ∃ t, exec .rxRecvSocket s = .next t ∧ t.sockq = q ∧
      (s.regs.moder.getLsbD 5 = true ∨
          (∃ b0 b1 b2 b3 b4 b5 : Byte, ∃ rest : List Byte, f = b0 :: b1 :: b2 :: b3 :: b4 :: b5 :: rest ∧
            b0 ++ b1 = s.regs.macAddr1.extractLsb' 0 16 ∧ b2 ++ b3 ++ b4 ++ b5 = s.regs.macAddr0) →
        t.rx.state = .writeFifo ∧ t.rx.len = f.length ∧ t.rx.done = 0 ∧ t.rx.fifo.take f.length = f ∧
        t.rx = { s.rx with state := t.rx.state, len := t.rx.len, done := t.rx.done, fifo := t.rx.fifo }) ∧
      (¬ (s.regs.moder.getLsbD 5 = true ∨
          (∃ b0 b1 b2 b3 b4 b5 : Byte, ∃ rest : List Byte, f = b0 :: b1 :: b2 :: b3 :: b4 :: b5 :: rest ∧
            b0 ++ b1 = s.regs.macAddr1.extractLsb' 0 16 ∧ b2 ++ b3 ++ b4 ++ b5 = s.regs.macAddr0)) →
        t.rx = s.rx) ∧
      t = { s with rx := t.rx, sockq := t.sockq, draws := t.draws }

/-- R307, R365: with nothing pending, or an empty frame at the head, the engine stays as it is; a frame of one to
five bytes with PRO = 0 is captured or discarded and nothing else happens to it; in promiscuous mode it is captured.
-/
def Obligations.RecvSocketWithoutAnAddress : Prop :=
  ∀ s : State,
    (s.sockq = [] → exec .rxRecvSocket s = .next s) ∧
    (∀ q, s.sockq = [] :: q → exec .rxRecvSocket s = .next { s with sockq := q }) ∧
    (∀ f q, s.sockq = f :: q → f ≠ [] → f.length < 6 → f.length ≤ s.cfg.maxFrame →
      ∃ t, exec .rxRecvSocket s = .next t ∧ t.sockq = q ∧
        (t.rx = s.rx ∨
          (t.rx.state = .writeFifo ∧ t.rx.len = f.length ∧ t.rx.done = 0 ∧ t.rx.fifo.take f.length = f ∧
            t.rx = { s.rx with state := t.rx.state, len := t.rx.len, done := t.rx.done, fifo := t.rx.fifo })) ∧
        (s.regs.moder.getLsbD 5 = true →
          t.rx.state = .writeFifo ∧ t.rx.len = f.length ∧ t.rx.done = 0 ∧ t.rx.fifo.take f.length = f) ∧
        t = { s with rx := t.rx, sockq := t.sockq, draws := t.draws })

/-- R308, R102, where the memory does not admit the word (R111, R14; log 5): the engine has no step, and everything
stays as it is. Where it does, and the word is not the last: the frame's next four bytes go to the four bytes at
`rx.buf + rx.done`, every other byte of memory stays, and nothing but `rx.done` changes besides. -/
def Obligations.RxWriteFifoStoresOneWord : Prop :=
  ∀ s : State, (rxDmaAddr s).toNat % 4 = 0 →
    (admitsWord s.cfg (rxDmaAddr s) = false → exec .rxWriteFifo s = .next s) ∧
    (Memory.wf s.mem = true → admitsWord s.cfg (rxDmaAddr s) = true →
      s.rx.done + 4 < s.rx.len → s.rx.len ≤ s.rx.fifo.length →
      ∃ t, exec .rxWriteFifo s = .next t ∧ t.rx.done = s.rx.done + 4 ∧
        bytesAt t.mem (rxDmaAddr s) 4 = (s.rx.fifo.drop s.rx.done).take 4 ∧
        (∀ x, Outside (rxDmaAddr s) 4 x → Memory.read t.mem x.toNat = Memory.read s.mem x.toNat) ∧
        (∃ w, wordBytes w = (s.rx.fifo.drop s.rx.done).take 4 ∧
          t.history = s.history ++ [.memWrite .rx (rxDmaAddr s) w]) ∧
        t = { s with rx := { s.rx with done := t.rx.done }, mem := t.mem, history := t.history, draws := t.draws })

/-- R308 (the last word), R309, R310, R404: the frame's last bytes are stored (the bytes past its end are left
open), the word recorded is the word stored, and the descriptor at the current `rx.idx` is written back with LEN,
RD, SF and TL by the current PACKETLEN; RXB is set, the line asserted where RXB is masked in and IRQ is set, and the
pointer advanced. -/
def Obligations.RxWriteFifoCompletesTheFrame : Prop :=
  ∀ s : State, Memory.wf s.mem = true → (rxDmaAddr s).toNat % 4 = 0 → admitsWord s.cfg (rxDmaAddr s) = true →
    s.rx.done < s.rx.len → s.rx.len ≤ s.rx.done + 4 → s.rx.len ≤ s.rx.fifo.length →
    s.rx.idx.toNat < s.bd.length →
    ∃ t, exec .rxWriteFifo s = .next t ∧
      bytesAt t.mem (rxDmaAddr s) (s.rx.len - s.rx.done) =
        (s.rx.fifo.drop s.rx.done).take (s.rx.len - s.rx.done) ∧
      (∀ x, Outside (rxDmaAddr s) 4 x → Memory.read t.mem x.toNat = Memory.read s.mem x.toNat) ∧
      t.bd[s.rx.idx.toNat]? = some t.rx.bd ∧ (∀ j, j ≠ s.rx.idx.toNat → t.bd[j]? = s.bd[j]?) ∧
      t.rx.bd.toNat / 2 ^ 16 = s.rx.len % 2 ^ 16 ∧ t.rx.bd.getLsbD 15 = false ∧
      t.rx.bd.getLsbD 2 = (s.rx.bd.getLsbD 2 || decide (s.rx.len < s.regs.packetLen.toNat / 2 ^ 16)) ∧
      t.rx.bd.getLsbD 3 = (s.rx.bd.getLsbD 3 || decide (s.regs.packetLen.toNat % 2 ^ 16 < s.rx.len)) ∧
      (∀ k, k < 15 → k ≠ 2 → k ≠ 3 → t.rx.bd.getLsbD k = s.rx.bd.getLsbD k) ∧
      SetAt 2 s.regs.intSource t.regs.intSource ∧ (∀ q, q ≠ .intSource → t.regs.get q = s.regs.get q) ∧
      (s.regs.intMask.getLsbD 2 = true ∧ s.rx.bd.getLsbD 14 = true → t.irq = true ∧
        ∃ w, wordBytes w = bytesAt t.mem (rxDmaAddr s) 4 ∧
          t.history = s.history ++ [.memWrite .rx (rxDmaAddr s) w, .irqAssert]) ∧
      (¬ (s.regs.intMask.getLsbD 2 = true ∧ s.rx.bd.getLsbD 14 = true) → t.irq = s.irq ∧
        ∃ w, wordBytes w = bytesAt t.mem (rxDmaAddr s) 4 ∧
          t.history = s.history ++ [.memWrite .rx (rxDmaAddr s) w]) ∧
      t.rx.idx = (if s.rx.bd.getLsbD 13 = true ∨ s.cfg.wrapLimit ≤ s.rx.idx.toNat then 2 * s.regs.txBdNum
        else s.rx.idx + 2) ∧
      t.rx.state = .idle ∧ t.rx.done = s.rx.done + 4 ∧
      t = { s with
        mem := t.mem, bd := t.bd, regs := t.regs, irq := t.irq, history := t.history, draws := t.draws,
        rx := { s.rx with bd := t.rx.bd, idx := t.rx.idx, state := t.rx.state, done := t.rx.done } }

/-- R310, R414: a completion whose `rx.idx` lies outside the descriptor RAM faults; the faulting step leaves the
device as it was, its memory included (log 17; `restAfter` is log 7). -/
def Obligations.RxCompletionOutsideTheRamFaults : Prop :=
  ∀ s : State, (rxDmaAddr s).toNat % 4 = 0 → admitsWord s.cfg (rxDmaAddr s) = true →
    s.rx.len ≤ s.rx.done + 4 → s.bd.length ≤ s.rx.idx.toNat →
    exec .rxWriteFifo s = .fault (.raised (.bdIndexOutOfRange .rx s.rx.idx.toNat)) ∧
    restAfter s (exec .rxWriteFifo s) =
      { s with
        fault := s.fault <|> some (.bdIndexOutOfRange .rx s.rx.idx.toNat)
        history := s.history ++ [.fault (.bdIndexOutOfRange .rx s.rx.idx.toNat)] }

/-- R311: the RX ring advance wraps to twice TX_BD_NUM or goes on by 2; and the step that completes a frame evaluates
it on the TX_BD_NUM register as it stands then. -/
def Obligations.NextRxWrapsToTwiceTxBdNum : Prop :=
  ∀ (cfg : Config) (txBdNum idx : Word) (wr : Bool),
    (wr = true ∨ cfg.wrapLimit ≤ idx.toNat → (nextRx cfg txBdNum idx wr).toNat = 2 * txBdNum.toNat % 2 ^ 32) ∧
    (¬ (wr = true ∨ cfg.wrapLimit ≤ idx.toNat) → (nextRx cfg txBdNum idx wr).toNat = (idx.toNat + 2) % 2 ^ 32) ∧
    (∀ s : State, (rxDmaAddr s).toNat % 4 = 0 → admitsWord s.cfg (rxDmaAddr s) = true → s.rx.len ≤ s.rx.done + 4 →
      s.rx.idx.toNat < s.bd.length →
      ∃ t, exec .rxWriteFifo s = .next t ∧
        t.rx.idx = nextRx s.cfg s.regs.txBdNum s.rx.idx (s.rx.bd.getLsbD 13))

/-- R312, R313, with a memory that admits every address: from the start of WRITE_FIFO, after `ceil4(len) / 4` steps
the frame stands in memory at the buffer, byte for byte, no byte beyond the frame's last word has changed, and the
descriptor has been written back. -/
def Obligations.ReceivedFrameStandsInMemory : Prop :=
  ∀ s : State, Memory.wf s.mem = true → s.cfg.memHoles = [] → s.rx.state = .writeFifo → s.rx.done = 0 →
    1 ≤ s.rx.len → s.rx.len ≤ 65535 → s.rx.len ≤ s.rx.fifo.length → s.rx.buf.toNat % 4 = 0 →
    s.rx.idx.toNat < s.bd.length →
    ∃ t w, rxSteps (wordsOf s.rx.len) s = .next t ∧
      bytesAt t.mem s.rx.buf s.rx.len = s.rx.fifo.take s.rx.len ∧
      (∀ x, Outside s.rx.buf (4 * wordsOf s.rx.len) x → Memory.read t.mem x.toNat = Memory.read s.mem x.toNat) ∧
      t.bd[s.rx.idx.toNat]? = some w ∧ w.toNat / 2 ^ 16 = s.rx.len ∧ w.getLsbD 15 = false ∧
      (∀ j, j ≠ s.rx.idx.toNat → t.bd[j]? = s.bd[j]?) ∧
      SetAt 2 s.regs.intSource t.regs.intSource ∧ t.rx.state = .idle

/-- R306, R312, R313 in the FILE variant with LOOPBCK = 0 (the source is RXFILE) and a memory that admits every
address: from IDLE with a ready descriptor and a whole record at the source's cursor, the record's payload stands in
memory after `3 + ceil4(n) / 4` RX steps. -/
def Obligations.FileRecordIsReceived : Prop :=
  ∀ (s : State) (w0 w1 : Word) (p rest : List Byte), Memory.wf s.mem = true → s.cfg.memHoles = [] →
    s.cfg.backend = .file → s.cfg.rxSourceAvailable = true → s.rx.state = .idle → s.regs.moder.getLsbD 7 = false →
    DescriptorAt s s.rx.idx w0 w1 → w0.getLsbD 15 = true → w1.toNat % 4 = 0 →
    s.cfg.rxs.drop s.rxOff = encLen s.cfg p.length ++ p ++ rest → p.length < 256 ^ s.cfg.lenFieldBytes →
    1 ≤ p.length → s.cfg.minHdrLen ≤ p.length → p.length ≤ s.cfg.maxFrame → p.length ≤ 65535 →
    ∃ t w, rxSteps (3 + wordsOf p.length) s = .next t ∧ bytesAt t.mem w1 p.length = p ∧
      t.bd[s.rx.idx.toNat]? = some w ∧ w.toNat / 2 ^ 16 = p.length ∧ w.getLsbD 15 = false ∧
      t.rxOff = s.rxOff + s.cfg.lenFieldBytes + p.length ∧ t.rx.state = .idle

/-! ### Transport -/

/-- R352: `Enc` has `LEN_FIELD_BYTES` bytes in `HOST_ENDIAN` order, and `Dec` is its inverse, in either order. -/
def Obligations.DecInvertsEnc : Prop :=
  ∀ (cfg : Config) (n : Nat), n < 256 ^ cfg.lenFieldBytes →
    (encLen cfg n).length = cfg.lenFieldBytes ∧ decLen cfg (encLen cfg n) = n ∧
    (∀ i, i < cfg.lenFieldBytes →
      (cfg.hostEndian = .little → (encLen cfg n)[i]? = some (BitVec.ofNat 8 (n / 256 ^ i))) ∧
      (cfg.hostEndian = .big → (encLen cfg n)[cfg.lenFieldBytes - 1 - i]? = some (BitVec.ofNat 8 (n / 256 ^ i))))

/-- R353: what `Take` is, when a read is short, and that the reads of either source return it and advance their own
cursor by the number of bytes returned. -/
def Obligations.StreamReadTakesFromTheCursor : Prop :=
  (∀ (stream : List Byte) (c k : Nat),
    (takeAt stream c k).length = min (c + k) stream.length - c ∧
    (∀ j, j < (takeAt stream c k).length → (takeAt stream c k)[j]? = stream[c + j]?) ∧
    (stream.length ≤ c → takeAt stream c k = []) ∧
    ((takeAt stream c k).length < k → stream.length < c + k)) ∧
  (∀ (src : RxSource) (n : Nat) (s : State),
    (rxFileRead src n s).1 = takeAt (sourceBytes src s) (sourceCursor src s) n ∧
    sourceCursor src (rxFileRead src n s).2 = sourceCursor src s + (rxFileRead src n s).1.length ∧
    (∀ b, b = takeAt (sourceBytes src s) (sourceCursor src s) s.cfg.lenFieldBytes →
      (rxFileReadLen src s).1 = (if b.length = s.cfg.lenFieldBytes then some (decLen s.cfg b) else none) ∧
      sourceCursor src (rxFileReadLen src s).2 = sourceCursor src s + b.length) ∧
    (∀ other, other ≠ src →
      sourceCursor other (rxFileRead src n s).2 = sourceCursor other s ∧
      sourceCursor other (rxFileReadLen src s).2 = sourceCursor other s))

/-- R360, R353: the loopback cursor only advances, but for a device reset; no TX step moves it. -/
def Obligations.LoopbackCursorOnlyAdvances : Prop :=
  ∀ (i : Instr) (s t : State), exec i s = .next t →
    (s.lbOff ≤ t.lbOff ∨ ∃ v, i = .wrModer v ∧ v.getLsbD 11 = true) ∧
    (t.lbOff ≠ s.lbOff → (i = .rxRecvFile ∧ s.rx.src = .loopback) ∨ ∃ v, i = .wrModer v ∧ v.getLsbD 11 = true)

/-- R363: the ENV step of the SOCKET variant queues the frame and changes nothing else; the FILE variant has none
(a scheduled arrival then has no effect, log 16). -/
def Obligations.FrameArrivalQueuesTheFrame : Prop :=
  ∀ (s : State) (f : Frame) (rest : List Slot), Running s → s.sched = .arrive f :: rest →
    (s.cfg.backend = .socket → s.cfg.rxSourceAvailable = true →
      step s = .next { s with sched := rest, sockq := s.sockq ++ [f] }) ∧
    (s.cfg.backend = .file ∨ s.cfg.rxSourceAvailable = false → step s = .next { s with sched := rest })

/-! ### Rules over all operations -/

/-- R407, R410: the line falls only by an INT_SOURCE write that clears the last set bit, or by a device reset. -/
def Obligations.LineFallsOnlyByAcknowledgeOrReset : Prop :=
  ∀ (i : Instr) (s t : State), exec i s = .next t → s.irq = true → t.irq = false →
    (∃ v, i = .wrIntSource v ∧ s.regs.intSource ≠ 0 ∧ s.regs.intSource &&& ~~~v = 0) ∨
    (∃ v, i = .wrModer v ∧ v.getLsbD 11 = true)

/-- R404, R406, R409: the line rises only by an event of an engine step, which sets a source bit and records the
assertion; for TXB, TXE and RXB the same step has written back the descriptor at the engine's pointer with RD = 0. -/
def Obligations.LineRisesOnlyByAnEngineEvent : Prop :=
  ∀ (i : Instr) (s t : State), exec i s = .next t → s.irq = false → t.irq = true →
    (∃ l, t.history = s.history ++ l ++ [.irqAssert]) ∧
    ((i = .txTransmit ∧ (t.regs.intSource.getLsbD 0 = true ∨ t.regs.intSource.getLsbD 1 = true) ∧
        ∃ w, t.bd[s.tx.idx.toNat]? = some w ∧ w.getLsbD 15 = false ∧ w.getLsbD 14 = true) ∨
     (i = .rxWriteFifo ∧ t.regs.intSource.getLsbD 2 = true ∧
        ∃ w, t.bd[s.rx.idx.toNat]? = some w ∧ w.getLsbD 15 = false ∧ w.getLsbD 14 = true) ∨
     (i = .rxWaitBd ∧ t.regs.intSource.getLsbD 4 = true ∧ s.regs.intMask.getLsbD 4 = true))

/-- R35, R405, R408: a bus access sets no source bit; an engine step clears none and sets at most one, which is TXB,
TXE, RXB or BUSY. -/
def Obligations.SourceBitsAreSetByEngineEvents : Prop :=
  ∀ (i : Instr) (s t : State), exec i s = .next t →
    (¬ IsTxStep i → ¬ IsRxStep i →
      ∀ k, t.regs.intSource.getLsbD k = true → s.regs.intSource.getLsbD k = true) ∧
    (IsTxStep i ∨ IsRxStep i →
      t.regs.intSource = s.regs.intSource ∨
        ∃ k, (k = 0 ∨ k = 1 ∨ k = 2 ∨ k = 4) ∧ SetAt k s.regs.intSource t.regs.intSource)

/-- R101, R107: of all operations only the RX engine's WRITE_FIFO step changes system memory, and it changes no
byte outside the word at `rx.buf + rx.done`. R149, R453: the one other writer is another bus master's store, a slot of
the schedule (log 16): it changes memory alone, no byte outside those it names, and each of those where the memory
admits it. -/
def Obligations.OnlyRxWriteFifoStoresToMemory : Prop :=
  (∀ (i : Instr) (s t : State), exec i s = .next t → Memory.wf s.mem = true →
    (i ≠ .rxWriteFifo → t.mem = s.mem) ∧
    (∀ x, Outside (rxDmaAddr s) 4 x → Memory.read t.mem x.toNat = Memory.read s.mem x.toNat)) ∧
  (∀ (s : State) (a : Word) (bs : List Byte) (rest : List Slot), Running s → s.sched = .store a bs :: rest →
    Memory.wf s.mem = true →
    ∃ t, step s = .next t ∧ t = { s with sched := rest, mem := t.mem } ∧
      (∀ x, Outside a bs.length x → Memory.read t.mem x.toNat = Memory.read s.mem x.toNat) ∧
      (bs.length ≤ 2 ^ 32 → ∀ j b, bs[j]? = some b →
        Memory.read t.mem (a + BitVec.ofNat 32 j).toNat =
          if admitsByte s.cfg (a + BitVec.ofNat 32 j) = true then b
          else Memory.read s.mem (a + BitVec.ofNat 32 j).toNat))

/-- R267, R310, R59: an engine writes back word 0 of the descriptor at its own pointer and no other word of the
descriptor RAM; of the bus accesses only a descriptor write (R226, the word it names alone) and a device reset change
it. -/
def Obligations.EnginesWriteBackOnlyTheirOwnWord : Prop :=
  ∀ (i : Instr) (s t : State), exec i s = .next t →
    (IsTxStep i → ∀ j, j ≠ s.tx.idx.toNat → t.bd[j]? = s.bd[j]?) ∧
    (IsRxStep i → ∀ j, j ≠ s.rx.idx.toNat → t.bd[j]? = s.bd[j]?) ∧
    (∀ k v, i = .wrBd k v → ∀ j, j ≠ k → t.bd[j]? = s.bd[j]?) ∧
    (t.bd ≠ s.bd →
      i = .txTransmit ∨ i = .rxWriteFifo ∨ (∃ k v, i = .wrBd k v) ∨ (∃ v, i = .wrModer v ∧ v.getLsbD 11 = true))

/-- R272: no step of one engine reads or writes the working state of the other: with another working state of the
other engine in its place the step answers the same, that state carried along. -/
def Obligations.EnginesIgnoreEachOthersWorkingState : Prop :=
  ∀ (i : Instr) (s : State),
    (IsTxStep i → ∀ rx : RxWork,
      match exec i s with
      | .next t => t.rx = s.rx ∧ exec i { s with rx := rx } = .next { t with rx := rx }
      | .fault f => exec i { s with rx := rx } = .fault f
      | .refused r => exec i { s with rx := rx } = .refused r) ∧
    (IsRxStep i → ∀ tx : TxWork,
      match exec i s with
      | .next t => t.tx = s.tx ∧ exec i { s with tx := tx } = .next { t with tx := tx }
      | .fault f => exec i { s with tx := tx } = .fault f
      | .refused r => exec i { s with tx := tx } = .refused r)

/-- R67, R65, R351: no operation rewrites the history, changes the configuration or takes back a frame on the wire;
nor an answer of the register port, which stands in the model's own field `busOut` (DESIGN CHOICE, log 9). -/
def Obligations.RecordsOnlyGrow : Prop :=
  ∀ (i : Instr) (s t : State), exec i s = .next t →
    s.history <+: t.history ∧ s.busOut <+: t.busOut ∧ s.wireOut <+: t.wireOut ∧ t.cfg = s.cfg

/-! ### The machine -/

/-- R9, R10, R141, R227: a bus access at the register port is run as the operation its code decodes to, in the
state with the access taken from the schedule. -/
def Obligations.StepRunsTheDecodedPortAccess : Prop :=
  ∀ (s : State) (off : BitVec 16) (v : Word) (rest : List Slot), Running s →
    (s.sched = .port .read off v :: rest → step s = exec (decodeRead s.cfg off) { s with sched := rest }) ∧
    (s.sched = .port .write off v :: rest → step s = exec (decodeWrite s.cfg off v) { s with sched := rest })

/-- R180, R181: a 32-bit access at a bus address in the window is run at `addr - BASE`; one of another width is
refused (in the form of log 15); one outside the window never reaches the block. That a window does not wrap past the
top of the address space, so that an address below BASE is outside it, is the model's choice (log 14). -/
def Obligations.BusAccessIsRoutedByTheWindow : Prop :=
  ∀ (s : State) (acc : BusAccess) (rest : List Slot), Running s → s.cfg.regionSize ≤ 0x10000 →
    s.sched = .bus acc :: rest →
    (∀ off : Nat, acc.addr.toNat = s.cfg.base.toNat + off → off < s.cfg.regionSize →
      (acc.width = .w32 → acc.dir = .read →
        step s = exec (decodeRead s.cfg (BitVec.ofNat 16 off)) { s with sched := rest }) ∧
      (acc.width = .w32 → acc.dir = .write →
        step s = exec (decodeWrite s.cfg (BitVec.ofNat 16 off) acc.data) { s with sched := rest }) ∧
      (acc.width ≠ .w32 → step s = .refused .accessWidth)) ∧
    (acc.addr.toNat < s.cfg.base.toNat ∨ s.cfg.base.toNat + s.cfg.regionSize ≤ acc.addr.toNat →
      step s = .next { s with sched := rest })

/-- R63, R260, R300, R463: an engine's turn runs the step its own state selects, where the engine is active and has
its step of this tick still to take; the step is run with that noted (`txDue`, `rxDue` and the schedule are the
model's own fields, log 3). -/
def Obligations.TurnRunsTheEngineStep : Prop :=
  ∀ (s : State) (rest : List Slot), Running s →
    (s.sched = .txTurn :: rest → s.txDue = true → s.regs.moder.getLsbD 1 = true →
      step s = exec (decodeTx (txCode s.tx.state)) { s with sched := rest, txDue := false }) ∧
    (s.sched = .rxTurn :: rest → s.rxDue = true → s.regs.moder.getLsbD 0 = true →
      step s = exec (decodeRx s.cfg.backend (rxCode s.rx.state)) { s with sched := rest, rxDue := false })

/-- R463: a tick is over when no active engine has a step of it left to take; a turn in a tick that is over begins
the next tick, in which every active engine has one step to take, and so does a scheduled `tick`; an engine that has
taken its step has none until the other active engine has taken its own; an inactive engine has none. Where nothing
is scheduled, ticks keep coming: an active engine steps, and with both inactive nothing happens (which engine steps
first is open, log 3). -/
def Obligations.EachTickGivesAnActiveEngineOneStep : Prop :=
  ∀ (s : State) (rest : List Slot), Running s →
    (s.sched = .txTurn :: rest →
      (s.regs.moder.getLsbD 1 = false → step s = .next { s with sched := rest }) ∧
      (s.txDue = false → s.rxDue = true → s.regs.moder.getLsbD 0 = true → step s = .next { s with sched := rest }) ∧
      (s.txDue = false → s.rxDue = false ∨ s.regs.moder.getLsbD 0 = false → s.regs.moder.getLsbD 1 = true →
        step s =
          exec (decodeTx (txCode s.tx.state))
            { s with sched := rest, txDue := false, rxDue := s.regs.moder.getLsbD 0 })) ∧
    (s.sched = .rxTurn :: rest →
      (s.regs.moder.getLsbD 0 = false → step s = .next { s with sched := rest }) ∧
      (s.rxDue = false → s.txDue = true → s.regs.moder.getLsbD 1 = true → step s = .next { s with sched := rest }) ∧
      (s.rxDue = false → s.txDue = false ∨ s.regs.moder.getLsbD 1 = false → s.regs.moder.getLsbD 0 = true →
        step s =
          exec (decodeRx s.cfg.backend (rxCode s.rx.state))
            { s with sched := rest, txDue := s.regs.moder.getLsbD 1, rxDue := false })) ∧
    (s.sched = .tick :: rest →
      ((s.txDue = true ∧ s.regs.moder.getLsbD 1 = true) ∨ (s.rxDue = true ∧ s.regs.moder.getLsbD 0 = true) →
        step s = .next { s with sched := rest }) ∧
      (¬ ((s.txDue = true ∧ s.regs.moder.getLsbD 1 = true) ∨ (s.rxDue = true ∧ s.regs.moder.getLsbD 0 = true)) →
        step s =
          .next { s with sched := rest, txDue := s.regs.moder.getLsbD 1, rxDue := s.regs.moder.getLsbD 0 })) ∧
    (s.sched = [] →
      (s.regs.moder.getLsbD 1 = false → s.regs.moder.getLsbD 0 = false → step s = .next s) ∧
      (s.regs.moder.getLsbD 1 = true ∨ s.regs.moder.getLsbD 0 = true →
        (s.regs.moder.getLsbD 1 = true ∧ TxSteps s) ∨ (s.regs.moder.getLsbD 0 = true ∧ RxSteps s)))

/-- R463 (weak fairness), where nothing is scheduled: an active engine takes a step within three steps of the machine
(the other engine's step of the tick at hand and of the next may come before it), unless one of those steps stops the
run. A schedule is finite, so every run comes there or stops (log 6). -/
def Obligations.ActiveEngineStepsWithinThreeSteps : Prop :=
  ∀ s : State, Running s → s.sched = [] →
    (s.regs.moder.getLsbD 1 = true →
      TxSteps s ∨ (RxSteps s ∧ ∀ t, step s = .next t → t.stop = false →
        TxSteps t ∨ (RxSteps t ∧ ∀ u, step t = .next u → u.stop = false → TxSteps u))) ∧
    (s.regs.moder.getLsbD 0 = true →
      RxSteps s ∨ (TxSteps s ∧ ∀ t, step s = .next t → t.stop = false →
        RxSteps t ∨ (TxSteps t ∧ ∀ u, step t = .next u → u.stop = false → RxSteps u)))

/-- R63: no engine steps while its enable bit is 0. -/
def Obligations.EnginesStepOnlyWhileEnabled : Prop :=
  ∀ (s u : State) (i : Instr), fetch s = .run i u →
    (IsTxStep i → s.regs.moder.getLsbD 1 = true) ∧ (IsRxStep i → s.regs.moder.getLsbD 0 = true)

/-- R64, R412, R414: after a stop request or a recorded fault no step of any agent has a next state, whatever is
scheduled; and a raised fault leaves the device halted with everything else as before the step (the
form of both is log 7). -/
def Obligations.HaltedMachineTakesNoStep : Prop :=
  ∀ s : State,
    (s.halted → ∃ f, step s = .fault f) ∧
    (∀ f, step s = .fault (.raised f) →
      (restAfter s (step s)).halted ∧
      restAfter s (step s) = { s with fault := some f, history := s.history ++ [.fault f] })

/-- R69 to R73, R441: a device just constructed, whatever its parameters, but for the fields R71 and R72 leave
unspecified (the empty memory and schedule are the model's own, log 3 and log 4). -/
def Obligations.ConstructedDeviceHoldsResetValues : Prop :=
  ∀ (cfg : Config) (s : State), s = State.construct cfg →
    s.cfg = cfg ∧ (∀ r x, resetValue r = some x → s.regs.get r = x) ∧
    s.regs.macAddr0.toNat = cfg.macAddress.toNat % 2 ^ 32 ∧ s.regs.macAddr1.toNat = cfg.macAddress.toNat / 2 ^ 32 ∧
    s.bd.length = cfg.ringWords ∧ (cfg.bdRamReset = .zero → ∀ w ∈ s.bd, w = 0) ∧
    s.tx.state = .idle ∧ s.tx.idx = 0 ∧ s.tx.sent = 0 ∧ s.tx.left = 0 ∧
    s.rx.state = .idle ∧ s.rx.idx = 0x80 ∧ s.rx.done = 0 ∧ s.rx.len = 0 ∧ s.rx.error = false ∧
    s.irq = false ∧ s.stop = false ∧
    s.txs = [] ∧ s.rxOff = 0 ∧ s.lbOff = 0 ∧ s.sockq = [] ∧ s.wireOut = [] ∧
    s.mem = [] ∧ s.sched = [] ∧
    (¬ (cfg.backend = .socket ∧ cfg.socketSetupFatal = true) → s.fault = none ∧ s.history = [])

/-- The invariant of Safety.lean holds of every constructed device, the one of `State.reset` among them. -/
def Obligations.InvariantHoldsAtReset : Prop :=
  (∀ cfg : Config, (State.construct cfg).Inv) ∧ State.reset.Inv

/-- R33, R35, R54, R100, R101, R184, R188, R266, R306, R307, R354: every step from a state that meets the invariant
gives a state that meets it. -/
def Obligations.EveryStepKeepsTheInvariant : Prop :=
  ∀ s t : State, s.Inv → step s = .next t → t.Inv

/-- R268: with the default ring geometry every step keeps the TX pointer even and inside the descriptor RAM; no step
changes the configuration. -/
def Obligations.EveryStepKeepsTheTxPointerInRam : Prop :=
  ∀ s t : State, step s = .next t →
    t.cfg = s.cfg ∧ (s.cfg.defaultRing → s.TxPointerInRam → t.TxPointerInRam)
end

