-- ==== Sys2Proof/Laws/Bits.lean ====
section
/-! SUPPORT. What the bit and field operations do, bit by bit. -/

namespace Sys2Proof.Machine

theorem getLsbD_setBit (w : Word) (k j : Nat) :
    (setBit w k).getLsbD j = (w.getLsbD j || (decide (k < 32) && decide (k = j))) := by
  simp [setBit, BitVec.getLsbD_or, BitVec.getLsbD_twoPow]

theorem getLsbD_clearBit (w : Word) (k j : Nat) :
    (clearBit w k).getLsbD j = (w.getLsbD j && !decide (k = j)) := by
  by_cases hj : j < 32
  · have e : (clearBit w k).getLsbD j = (w.getLsbD j && !(decide (k < 32) && decide (k = j))) := by
      simp only [clearBit, BitVec.getLsbD_and, BitVec.getLsbD_not, BitVec.getLsbD_twoPow, hj, decide_true,
        Bool.true_and]
    rw [e]
    by_cases hk : k = j
    · subst hk; simp [hj]
    · simp [hk]
  · have h : w.getLsbD j = false := BitVec.getLsbD_of_ge w j (by omega)
    simp only [clearBit, BitVec.getLsbD_and, h, Bool.false_and]

theorem setBit_ne_zero (w : Word) (k : Nat) (hk : k < 32) : setBit w k ≠ 0 := by
  intro h
  have e := getLsbD_setBit w k k
  rw [h] at e
  simp [hk] at e

/-- Setting a bit of `m` keeps a word inside `m`. -/
theorem setBit_within {w m : Word} {k : Nat} (hw : w &&& ~~~m = 0) (hk : setBit 0 k &&& ~~~m = 0) :
    setBit w k &&& ~~~m = 0 := by
  apply BitVec.eq_of_getLsbD_eq
  intro i hi
  have h1 := congrArg (fun x : Word => x.getLsbD i) hw
  have h2 := congrArg (fun x : Word => x.getLsbD i) hk
  simp only [BitVec.getLsbD_and, BitVec.getLsbD_not, getLsbD_setBit] at *
  revert h1 h2
  cases w.getLsbD i <;> cases m.getLsbD i <;> simp_all

/-- A write-one-to-clear keeps a word inside `m`. -/
theorem writeOneToClear_within {w m v : Word} (hw : w &&& ~~~m = 0) : writeOneToClear w v &&& ~~~m = 0 := by
  apply BitVec.eq_of_getLsbD_eq
  intro i hi
  have h1 := congrArg (fun x : Word => x.getLsbD i) hw
  simp only [writeOneToClear, BitVec.getLsbD_and, BitVec.getLsbD_not] at *
  revert h1
  cases w.getLsbD i <;> cases m.getLsbD i <;> simp_all

theorem getLsbD_writeOneToClear (w v : Word) (k : Nat) :
    (writeOneToClear w v).getLsbD k = (w.getLsbD k && !v.getLsbD k) := by
  by_cases hk : k < 32
  · simp [writeOneToClear, hk]
  · simp [writeOneToClear, BitVec.getLsbD_of_ge _ _ (Nat.le_of_not_lt hk)]

theorem wordBytes_length (w : Word) : (wordBytes w).length = 4 := rfl

/-- A word is made of its own four bytes. -/
theorem wordOfBytes_wordBytes (w : Word) :
    wordOfBytes (w.extractLsb' 24 8) (w.extractLsb' 16 8) (w.extractLsb' 8 8) (w.extractLsb' 0 8) = w := by
  apply BitVec.eq_of_getLsbD_eq
  intro i hi
  simp only [wordOfBytes, BitVec.getLsbD_append, BitVec.getLsbD_extractLsb']
  by_cases h1 : i < 8
  · simp [h1]
  by_cases h2 : i < 16
  · have e : 8 + (i - 8) = i := by omega
    have g : i - 8 < 8 := by omega
    simp [h1, g, e]
  by_cases h3 : i < 24
  · have e : 16 + (i - 8 - 8) = i := by omega
    have g : i - 8 - 8 < 8 := by omega
    have g1 : ¬ i - 8 < 8 := by omega
    simp [h1, g, g1, e]
  · have e : 24 + (i - 8 - 8 - 8) = i := by omega
    have g : i - 8 - 8 - 8 < 8 := by omega
    have g1 : ¬ i - 8 < 8 := by omega
    have g2 : ¬ i - 8 - 8 < 8 := by omega
    simp [h1, g, g1, g2, e]

/-- The bytes of a word built from four bytes are those bytes. -/
theorem wordBytes_wordOfBytes (b0 b1 b2 b3 : Byte) : wordBytes (wordOfBytes b0 b1 b2 b3) = [b0, b1, b2, b3] := by
  simp only [wordBytes, wordOfBytes, List.cons.injEq, and_true]
  refine ⟨?_, ?_, ?_, ?_⟩ <;>
    · apply BitVec.eq_of_getLsbD_eq
      intro i hi
      simp only [BitVec.getLsbD_extractLsb', BitVec.getLsbD_append, hi, decide_true, Bool.true_and]
      repeat' (first | split | omega)
      all_goals first | omega | (congr 1; omega)

/-! ### Fields as numbers -/

theorem bdLen_toNat (w : Word) : (bdLen w).toNat = w.toNat / 2 ^ 16 := by
  have := w.isLt
  simp only [bdLen, BitVec.extractLsb'_toNat, Nat.shiftRight_eq_div_pow]
  omega

theorem minFl_toNat (w : Word) : (minFl w).toNat = w.toNat / 2 ^ 16 := bdLen_toNat w

theorem maxFl_toNat (w : Word) : (maxFl w).toNat = w.toNat % 2 ^ 16 := by
  simp [maxFl, BitVec.extractLsb'_toNat]

/-- The bits below the length field stay. -/
theorem getLsbD_setBdLen (w : Word) (n : Nat) {k : Nat} (hk : k < 16) :
    (setBdLen w n).getLsbD k = w.getLsbD k := by
  rw [setBdLen, BitVec.getLsbD_append, if_pos hk, BitVec.getLsbD_extractLsb']
  simp [hk]

/-- The length field holds the length modulo 2^16. -/
theorem bdLen_setBdLen (w : Word) (n : Nat) : (bdLen (setBdLen w n)).toNat = n % 2 ^ 16 := by
  rw [bdLen_toNat, setBdLen, BitVec.toNat_append]
  have := (w.extractLsb' 0 16).isLt
  rw [Nat.shiftLeft_eq, ← Nat.mul_comm, ← Nat.two_pow_add_eq_or_of_lt this, BitVec.toNat_ofNat]
  omega

/-- Words that agree from bit 16 up have the same length field. -/
theorem bdLen_eq_of_top {a b : Word} (h : ∀ k, 16 ≤ k → a.getLsbD k = b.getLsbD k) : bdLen a = bdLen b := by
  apply BitVec.eq_of_getLsbD_eq
  intro i hi
  rw [bdLen, bdLen, BitVec.getLsbD_extractLsb', BitVec.getLsbD_extractLsb', h _ (by omega)]

end Sys2Proof.Machine
end

