-- ==== Sys2Proof/Laws/Encoding.lean ====
section
/-! SUPPORT. What the decoder does away from the register offsets, and that a code is read back from its number. -/

namespace Sys2Proof

theorem decodeRead_of_misaligned {cfg : Config} {off : BitVec 16} (h : off.toNat % 4 ≠ 0) :
    decodeRead cfg off = .rdUnmapped off := by
  unfold decodeRead
  split <;> first | omega | simp [h]

theorem decodeWrite_of_misaligned {cfg : Config} {off : BitVec 16} {v : Word} (h : off.toNat % 4 ≠ 0) :
    decodeWrite cfg off v = .wrUnmapped off v := by
  unfold decodeWrite
  split <;> first | omega | simp [h]

/-- Above the registers a read is a descriptor word or nothing (R143). -/
theorem decodeRead_above_registers {cfg : Config} {off : BitVec 16} (h : 0x50 ≤ off.toNat) :
    decodeRead cfg off =
      if off.toNat % 4 = 0 ∧ cfg.inBdWindow off.toNat = true then .rdBd (cfg.bdIndexOf off.toNat)
      else .rdUnmapped off := by
  unfold decodeRead
  split <;> first | omega | rfl

/-- Above the registers a write is a descriptor word or nothing (R143). -/
theorem decodeWrite_above_registers {cfg : Config} {off : BitVec 16} {v : Word} (h : 0x50 ≤ off.toNat) :
    decodeWrite cfg off v =
      if off.toNat % 4 = 0 ∧ cfg.inBdWindow off.toNat = true then .wrBd (cfg.bdIndexOf off.toNat) v
      else .wrUnmapped off v := by
  unfold decodeWrite
  split <;> first | omega | rfl

/-- A code is read back from its own number, in its own format. -/
theorem Code.ofWord_toWord (c : Code) : Code.ofWord c.format c.toWord = .ok c := by
  cases c with
  | read off =>
    have := off.isLt
    have e : (Code.read off).toWord = off.toNat := rfl
    generalize (Code.read off).toWord = w at e
    simp only [Code.format, Code.ofWord]
    rw [if_pos (by omega), if_pos (by omega), e]
    simp
  | write off v =>
    have := off.isLt
    have := v.isLt
    have e : (Code.write off v).toWord = v.toNat * 2 ^ 24 + 2 ^ 16 + off.toNat := rfl
    generalize (Code.write off v).toWord = w at e
    simp only [Code.format, Code.ofWord]
    rw [if_neg (by omega), if_pos (by omega)]
    congr 2 <;>
      · apply BitVec.eq_of_toNat_eq
        rw [BitVec.toNat_ofNat]
        omega
  | tx st =>
    have := st.isLt
    have e : (Code.tx st).toWord = st.toNat := rfl
    generalize (Code.tx st).toWord = w at e
    simp only [Code.format, Code.ofWord]
    rw [if_pos (by omega), e]
    simp
  | rx st =>
    have := st.isLt
    have e : (Code.rx st).toWord = st.toNat := rfl
    generalize (Code.rx st).toWord = w at e
    simp only [Code.format, Code.ofWord]
    rw [if_pos (by omega), e]
    simp

end Sys2Proof
end

