-- ==== Sys2Proof/Laws/Exec.lean ====
section
/-! SUPPORT. The dispatch, one equation per operation, so that no proof unfolds `exec`. -/

namespace Sys2Proof.Machine

@[simp] theorem exec_rdModer (s : State) : exec .rdModer s = execRdModer s := rfl
@[simp] theorem exec_wrModer (v : Word) (s : State) : exec (.wrModer v) s = execWrModer v s := rfl
@[simp] theorem exec_rdIntSource (s : State) : exec .rdIntSource s = execRdIntSource s := rfl
@[simp] theorem exec_wrIntSource (v : Word) (s : State) : exec (.wrIntSource v) s = execWrIntSource v s := rfl
@[simp] theorem exec_rdIntMask (s : State) : exec .rdIntMask s = execRdIntMask s := rfl
@[simp] theorem exec_wrIntMask (v : Word) (s : State) : exec (.wrIntMask v) s = execWrIntMask v s := rfl
@[simp] theorem exec_rdIpgt (s : State) : exec .rdIpgt s = execRdIpgt s := rfl
@[simp] theorem exec_wrIpgt (v : Word) (s : State) : exec (.wrIpgt v) s = execWrIpgt v s := rfl
@[simp] theorem exec_rdIpgr1 (s : State) : exec .rdIpgr1 s = execRdIpgr1 s := rfl
@[simp] theorem exec_wrIpgr1 (v : Word) (s : State) : exec (.wrIpgr1 v) s = execWrIpgr1 v s := rfl
@[simp] theorem exec_rdIpgr2 (s : State) : exec .rdIpgr2 s = execRdIpgr2 s := rfl
@[simp] theorem exec_wrIpgr2 (v : Word) (s : State) : exec (.wrIpgr2 v) s = execWrIpgr2 v s := rfl
@[simp] theorem exec_rdPacketLen (s : State) : exec .rdPacketLen s = execRdPacketLen s := rfl
@[simp] theorem exec_wrPacketLen (v : Word) (s : State) : exec (.wrPacketLen v) s = execWrPacketLen v s := rfl
@[simp] theorem exec_rdCollConf (s : State) : exec .rdCollConf s = execRdCollConf s := rfl
@[simp] theorem exec_wrCollConf (v : Word) (s : State) : exec (.wrCollConf v) s = execWrCollConf v s := rfl
@[simp] theorem exec_rdTxBdNum (s : State) : exec .rdTxBdNum s = execRdTxBdNum s := rfl
@[simp] theorem exec_wrTxBdNum (v : Word) (s : State) : exec (.wrTxBdNum v) s = execWrTxBdNum v s := rfl
@[simp] theorem exec_rdCtrlModer (s : State) : exec .rdCtrlModer s = execRdCtrlModer s := rfl
@[simp] theorem exec_wrCtrlModer (v : Word) (s : State) : exec (.wrCtrlModer v) s = execWrCtrlModer v s := rfl
@[simp] theorem exec_rdMiiModer (s : State) : exec .rdMiiModer s = execRdMiiModer s := rfl
@[simp] theorem exec_wrMiiModer (v : Word) (s : State) : exec (.wrMiiModer v) s = execWrMiiModer v s := rfl
@[simp] theorem exec_rdMiiCommand (s : State) : exec .rdMiiCommand s = execRdMiiCommand s := rfl
@[simp] theorem exec_wrMiiCommand (v : Word) (s : State) : exec (.wrMiiCommand v) s = execWrMiiCommand v s := rfl
@[simp] theorem exec_rdMiiAddress (s : State) : exec .rdMiiAddress s = execRdMiiAddress s := rfl
@[simp] theorem exec_wrMiiAddress (v : Word) (s : State) : exec (.wrMiiAddress v) s = execWrMiiAddress v s := rfl
@[simp] theorem exec_rdMiiTxData (s : State) : exec .rdMiiTxData s = execRdMiiTxData s := rfl
@[simp] theorem exec_wrMiiTxData (v : Word) (s : State) : exec (.wrMiiTxData v) s = execWrMiiTxData v s := rfl
@[simp] theorem exec_rdMiiRxData (s : State) : exec .rdMiiRxData s = execRdMiiRxData s := rfl
@[simp] theorem exec_wrMiiRxData (v : Word) (s : State) : exec (.wrMiiRxData v) s = execWrMiiRxData v s := rfl
@[simp] theorem exec_rdMiiStatus (s : State) : exec .rdMiiStatus s = execRdMiiStatus s := rfl
@[simp] theorem exec_wrMiiStatus (v : Word) (s : State) : exec (.wrMiiStatus v) s = execWrMiiStatus v s := rfl
@[simp] theorem exec_rdMacAddr0 (s : State) : exec .rdMacAddr0 s = execRdMacAddr0 s := rfl
@[simp] theorem exec_wrMacAddr0 (v : Word) (s : State) : exec (.wrMacAddr0 v) s = execWrMacAddr0 v s := rfl
@[simp] theorem exec_rdMacAddr1 (s : State) : exec .rdMacAddr1 s = execRdMacAddr1 s := rfl
@[simp] theorem exec_wrMacAddr1 (v : Word) (s : State) : exec (.wrMacAddr1 v) s = execWrMacAddr1 v s := rfl
@[simp] theorem exec_rdHash0 (s : State) : exec .rdHash0 s = execRdHash0 s := rfl
@[simp] theorem exec_wrHash0 (v : Word) (s : State) : exec (.wrHash0 v) s = execWrHash0 v s := rfl
@[simp] theorem exec_rdHash1 (s : State) : exec .rdHash1 s = execRdHash1 s := rfl
@[simp] theorem exec_wrHash1 (v : Word) (s : State) : exec (.wrHash1 v) s = execWrHash1 v s := rfl
@[simp] theorem exec_rdBd (i : Nat) (s : State) : exec (.rdBd i) s = execRdBd i s := rfl
@[simp] theorem exec_wrBd (i : Nat) (v : Word) (s : State) : exec (.wrBd i v) s = execWrBd i v s := rfl
@[simp] theorem exec_rdUnmapped (off : BitVec 16) (s : State) : exec (.rdUnmapped off) s = execRdUnmapped off s := rfl
@[simp] theorem exec_wrUnmapped (off : BitVec 16) (v : Word) (s : State) : exec (.wrUnmapped off v) s = execWrUnmapped off v s := rfl
@[simp] theorem exec_txIdle (s : State) : exec .txIdle s = execTxIdle s := rfl
@[simp] theorem exec_txWaitBd (s : State) : exec .txWaitBd s = execTxWaitBd s := rfl
@[simp] theorem exec_txReadFifo (s : State) : exec .txReadFifo s = execTxReadFifo s := rfl
@[simp] theorem exec_txTransmit (s : State) : exec .txTransmit s = execTxTransmit s := rfl
@[simp] theorem exec_rxIdle (s : State) : exec .rxIdle s = execRxIdle s := rfl
@[simp] theorem exec_rxWaitBd (s : State) : exec .rxWaitBd s = execRxWaitBd s := rfl
@[simp] theorem exec_rxRecvFile (s : State) : exec .rxRecvFile s = execRxRecvFile s := rfl
@[simp] theorem exec_rxRecvSocket (s : State) : exec .rxRecvSocket s = execRxRecvSocket s := rfl
@[simp] theorem exec_rxWriteFifo (s : State) : exec .rxWriteFifo s = execRxWriteFifo s := rfl

end Sys2Proof.Machine
end

