-- ==== Sys2Proof/Laws/Memory.lean ====
section
/-! SUPPORT. The laws of system memory: the canonical form is kept, a read after a write. -/

namespace Sys2Proof.Machine

/-- `a` is above the lower bound, if there is one. -/
def Memory.above (lo : Option Nat) (a : Nat) : Prop :=
  match lo with
  | none => True
  | some l => l < a

theorem Memory.wfFrom_nil (lo : Option Nat) : Memory.wfFrom lo [] = true := by cases lo <;> rfl

theorem Memory.wfFrom_cons {lo : Option Nat} {k : Nat} {b : Byte} {m : List Host.Cell} :
    Memory.wfFrom lo ((k, b) :: m) = true ↔
      Memory.above lo k ∧ k < 2 ^ 32 ∧ b ≠ memDefault ∧ Memory.wfFrom (some k) m = true := by
  cases lo <;> simp [Memory.wfFrom, Memory.above, and_assoc]

theorem Memory.wfFrom_mono {lo : Option Nat} {l : Nat} {m : List Host.Cell}
    (hl : Memory.above lo l) (h : Memory.wfFrom (some l) m = true) : Memory.wfFrom lo m = true := by
  cases m with
  | nil => exact Memory.wfFrom_nil _
  | cons c m =>
    obtain ⟨k, b⟩ := c
    rw [Memory.wfFrom_cons] at h ⊢
    refine ⟨?_, h.2⟩
    cases lo with
    | none => trivial
    | some l0 => exact Nat.lt_trans hl h.1

/-- A write keeps the canonical form. -/
theorem Memory.write_wfFrom {lo : Option Nat} {m : List Host.Cell} {a : Nat} (b : Byte)
    (h : Memory.wfFrom lo m = true) (ha : Memory.above lo a) (ha' : a < 2 ^ 32) :
    Memory.wfFrom lo (Memory.write m a b) = true := by
  induction m generalizing lo with
  | nil =>
    simp only [Memory.write]
    split
    · exact Memory.wfFrom_nil _
    · exact Memory.wfFrom_cons.2 ⟨ha, ha', ‹_›, rfl⟩
  | cons c m ih =>
    obtain ⟨k, d⟩ := c
    obtain ⟨h1, h2, h3, h4⟩ := Memory.wfFrom_cons.1 h
    simp only [Memory.write]
    split
    · split
      · exact h
      · exact Memory.wfFrom_cons.2 ⟨ha, ha', ‹_›, Memory.wfFrom_cons.2 ⟨‹a < k›, h2, h3, h4⟩⟩
    · split
      · split
        · exact Memory.wfFrom_mono h1 h4
        · exact Memory.wfFrom_cons.2 ⟨ha, ha', ‹_›, by simpa [‹a = k›] using h4⟩
      · exact Memory.wfFrom_cons.2 ⟨h1, h2, h3, ih h4 (by simp only [Memory.above]; omega)⟩

theorem Memory.write_wf {m : List Host.Cell} {a : Nat} (b : Byte) (h : Memory.wf m = true) (ha : a < 2 ^ 32) :
    Memory.wf (Memory.write m a b) = true :=
  Memory.write_wfFrom b h trivial ha

theorem Memory.writeBytes_wf {m : List Host.Cell} {a : Word} (bs : List Byte) (h : Memory.wf m = true) :
    Memory.wf (Memory.writeBytes m a bs) = true := by
  induction bs generalizing m a with
  | nil => exact h
  | cons b bs ih => exact ih (Memory.write_wf b h a.isLt)

theorem Memory.writeWord_wf {m : List Host.Cell} {a v : Word} (h : Memory.wf m = true) :
    Memory.wf (Memory.writeWord m a v) = true :=
  Memory.writeBytes_wf _ h

theorem Memory.otherMasterStore_wf {a : Word} (bs : List Byte) {s : State} (h : Memory.wf s.mem = true) :
    Memory.wf (otherMasterStore a bs s).mem = true := by
  induction bs generalizing a s with
  | nil => exact h
  | cons b bs ih =>
    apply ih
    split
    · exact Memory.write_wf b h a.isLt
    · exact h

/-- An address below every listed one reads as unlisted. -/
theorem Memory.read_of_wfFrom {m : List Host.Cell} {l a : Nat} (h : Memory.wfFrom (some l) m = true) (ha : a ≤ l) :
    Memory.read m a = memDefault := by
  induction m generalizing l with
  | nil => rfl
  | cons c m ih =>
    obtain ⟨k, d⟩ := c
    obtain ⟨h1, _, _, h4⟩ := Memory.wfFrom_cons.1 h
    have h1 : l < k := h1
    have hk : k ≠ a := by omega
    simp only [Memory.read, if_neg hk]
    exact ih h4 (by omega)

/-- A read after a write: the byte written at its own address, every other byte as before. -/
theorem Memory.read_writeFrom {lo : Option Nat} {m : List Host.Cell} {a : Nat} {b : Byte}
    (h : Memory.wfFrom lo m = true) (x : Nat) :
    Memory.read (Memory.write m a b) x = if x = a then b else Memory.read m x := by
  induction m generalizing lo with
  | nil =>
    simp only [Memory.write]
    split
    · simp [Memory.read, *]
    · simp [Memory.read, eq_comm]
  | cons c m ih =>
    obtain ⟨k, d⟩ := c
    obtain ⟨_, _, _, h4⟩ := Memory.wfFrom_cons.1 h
    have hbelow : ∀ y, y ≤ k → Memory.read m y = memDefault := fun y hy => Memory.read_of_wfFrom h4 hy
    simp only [Memory.write]
    split
    · rename_i hak
      split
      · rename_i hb
        by_cases hx : x = a
        · subst hx
          have hk : k ≠ x := by omega
          simp [Memory.read, hk, hbelow x (by omega), hb]
        · simp [hx]
      · simp only [Memory.read, eq_comm (a := a)]
    · split
      · rename_i hnk hak
        subst hak
        split
        · rename_i hb
          by_cases hx : x = a
          · subst hx
            simp [hbelow x (Nat.le_refl x), hb]
          · simp [Memory.read, Ne.symm hx, hx]
        · by_cases hx : x = a
          · simp [Memory.read, hx]
          · simp [Memory.read, Ne.symm hx, hx]
      · rename_i h1 h2
        by_cases hkx : k = x
        · have hxa : x ≠ a := by omega
          simp [Memory.read, hkx, hxa]
        · simp only [Memory.read, if_neg hkx]
          exact ih h4

theorem Memory.read_write {m : List Host.Cell} {a : Nat} {b : Byte} (h : Memory.wf m = true) (x : Nat) :
    Memory.read (Memory.write m a b) x = if x = a then b else Memory.read m x :=
  Memory.read_writeFrom h x

/-- Bytes a store does not reach stay. -/
theorem Memory.read_writeBytes_other {m : List Host.Cell} {a : Word} (bs : List Byte) (h : Memory.wf m = true)
    {x : Nat} (hx : ∀ j < bs.length, x ≠ (a + BitVec.ofNat 32 j).toNat) :
    Memory.read (Memory.writeBytes m a bs) x = Memory.read m x := by
  induction bs generalizing m a with
  | nil => rfl
  | cons b bs ih =>
    have h0 : x ≠ a.toNat := by
      have := hx 0 (by simp)
      simpa using this
    rw [Memory.writeBytes, ih (Memory.write_wf b h a.isLt), Memory.read_write h, if_neg h0]
    intro j hj
    have := hx (j + 1) (by simpa using hj)
    have e : a + BitVec.ofNat 32 (j + 1) = a + 1 + BitVec.ofNat 32 j := by
      rw [Nat.add_comm j 1, BitVec.ofNat_add, ← BitVec.add_assoc]
      rfl
    rwa [e] at this

/-- The word stored is the word read. -/
theorem Memory.readWord_writeWord {m : List Host.Cell} {a v : Word} (h : Memory.wf m = true) :
    Memory.readWord (Memory.writeWord m a v) a = v := by
  have e1 : (a + 1).toNat ≠ a.toNat := by bv_omega
  have e2 : (a + 1 + 1).toNat ≠ a.toNat := by bv_omega
  have e3 : (a + 1 + 1 + 1).toNat ≠ a.toNat := by bv_omega
  have e4 : (a + 1 + 1).toNat ≠ (a + 1).toNat := by bv_omega
  have e5 : (a + 1 + 1 + 1).toNat ≠ (a + 1).toNat := by bv_omega
  have e6 : (a + 1 + 1 + 1).toNat ≠ (a + 1 + 1).toNat := by bv_omega
  have f2 : a + 2 = a + 1 + 1 := by bv_omega
  have f3 : a + 3 = a + 1 + 1 + 1 := by bv_omega
  have w1 := Memory.write_wf (a := a.toNat) (v.extractLsb' 24 8) h a.isLt
  have w2 := Memory.write_wf (a := (a + 1).toNat) (v.extractLsb' 16 8) w1 (a + 1).isLt
  have w3 := Memory.write_wf (a := (a + 1 + 1).toNat) (v.extractLsb' 8 8) w2 (a + 1 + 1).isLt
  simp only [Memory.readWord, Memory.writeWord, wordBytes, Memory.writeBytes, f2, f3]
  simp only [Memory.read_write w3, Memory.read_write w2, Memory.read_write w1, Memory.read_write h, e1, e2, e3,
    e4, e5, e6, e1.symm, e2.symm, e3.symm, e4.symm, e5.symm, e6.symm, if_true, if_false]
  exact wordOfBytes_wordBytes v

end Sys2Proof.Machine
end

