-- ==== Sys2Proof/Laws/State.lean ====
section
/-! SUPPORT. The field of a state after an update: one lemma per field and update, so that no proof
unfolds a record update. -/

namespace Sys2Proof.Machine

@[simp] theorem record_cfg (e : HistEvent) (s : State) : (record e s).cfg = s.cfg := rfl
@[simp] theorem record_regs (e : HistEvent) (s : State) : (record e s).regs = s.regs := rfl
@[simp] theorem record_bd (e : HistEvent) (s : State) : (record e s).bd = s.bd := rfl
@[simp] theorem record_tx (e : HistEvent) (s : State) : (record e s).tx = s.tx := rfl
@[simp] theorem record_rx (e : HistEvent) (s : State) : (record e s).rx = s.rx := rfl
@[simp] theorem record_irq (e : HistEvent) (s : State) : (record e s).irq = s.irq := rfl
@[simp] theorem record_stop (e : HistEvent) (s : State) : (record e s).stop = s.stop := rfl
@[simp] theorem record_fault (e : HistEvent) (s : State) : (record e s).fault = s.fault := rfl
@[simp] theorem record_mem (e : HistEvent) (s : State) : (record e s).mem = s.mem := rfl
@[simp] theorem record_txs (e : HistEvent) (s : State) : (record e s).txs = s.txs := rfl
@[simp] theorem record_rxOff (e : HistEvent) (s : State) : (record e s).rxOff = s.rxOff := rfl
@[simp] theorem record_lbOff (e : HistEvent) (s : State) : (record e s).lbOff = s.lbOff := rfl
@[simp] theorem record_sockq (e : HistEvent) (s : State) : (record e s).sockq = s.sockq := rfl
@[simp] theorem record_wireOut (e : HistEvent) (s : State) : (record e s).wireOut = s.wireOut := rfl
@[simp] theorem record_history (e : HistEvent) (s : State) : (record e s).history = s.history ++ [e] := rfl
@[simp] theorem record_busOut (e : HistEvent) (s : State) : (record e s).busOut = s.busOut := rfl
@[simp] theorem record_draws (e : HistEvent) (s : State) : (record e s).draws = s.draws := rfl
@[simp] theorem record_sched (e : HistEvent) (s : State) : (record e s).sched = s.sched := rfl
@[simp] theorem record_txDue (e : HistEvent) (s : State) : (record e s).txDue = s.txDue := rfl
@[simp] theorem record_rxDue (e : HistEvent) (s : State) : (record e s).rxDue = s.rxDue := rfl

@[simp] theorem respond_cfg (v : Word) (s : State) : (respond v s).cfg = s.cfg := rfl
@[simp] theorem respond_regs (v : Word) (s : State) : (respond v s).regs = s.regs := rfl
@[simp] theorem respond_bd (v : Word) (s : State) : (respond v s).bd = s.bd := rfl
@[simp] theorem respond_tx (v : Word) (s : State) : (respond v s).tx = s.tx := rfl
@[simp] theorem respond_rx (v : Word) (s : State) : (respond v s).rx = s.rx := rfl
@[simp] theorem respond_irq (v : Word) (s : State) : (respond v s).irq = s.irq := rfl
@[simp] theorem respond_stop (v : Word) (s : State) : (respond v s).stop = s.stop := rfl
@[simp] theorem respond_fault (v : Word) (s : State) : (respond v s).fault = s.fault := rfl
@[simp] theorem respond_mem (v : Word) (s : State) : (respond v s).mem = s.mem := rfl
@[simp] theorem respond_txs (v : Word) (s : State) : (respond v s).txs = s.txs := rfl
@[simp] theorem respond_rxOff (v : Word) (s : State) : (respond v s).rxOff = s.rxOff := rfl
@[simp] theorem respond_lbOff (v : Word) (s : State) : (respond v s).lbOff = s.lbOff := rfl
@[simp] theorem respond_sockq (v : Word) (s : State) : (respond v s).sockq = s.sockq := rfl
@[simp] theorem respond_wireOut (v : Word) (s : State) : (respond v s).wireOut = s.wireOut := rfl
@[simp] theorem respond_history (v : Word) (s : State) : (respond v s).history = s.history := rfl
@[simp] theorem respond_busOut (v : Word) (s : State) : (respond v s).busOut = s.busOut ++ [v] := rfl
@[simp] theorem respond_draws (v : Word) (s : State) : (respond v s).draws = s.draws := rfl
@[simp] theorem respond_sched (v : Word) (s : State) : (respond v s).sched = s.sched := rfl
@[simp] theorem respond_txDue (v : Word) (s : State) : (respond v s).txDue = s.txDue := rfl
@[simp] theorem respond_rxDue (v : Word) (s : State) : (respond v s).rxDue = s.rxDue := rfl

@[simp] theorem drawn_cfg (s : State) : (drawn s).cfg = s.cfg := rfl
@[simp] theorem drawn_regs (s : State) : (drawn s).regs = s.regs := rfl
@[simp] theorem drawn_bd (s : State) : (drawn s).bd = s.bd := rfl
@[simp] theorem drawn_tx (s : State) : (drawn s).tx = s.tx := rfl
@[simp] theorem drawn_rx (s : State) : (drawn s).rx = s.rx := rfl
@[simp] theorem drawn_irq (s : State) : (drawn s).irq = s.irq := rfl
@[simp] theorem drawn_stop (s : State) : (drawn s).stop = s.stop := rfl
@[simp] theorem drawn_fault (s : State) : (drawn s).fault = s.fault := rfl
@[simp] theorem drawn_mem (s : State) : (drawn s).mem = s.mem := rfl
@[simp] theorem drawn_txs (s : State) : (drawn s).txs = s.txs := rfl
@[simp] theorem drawn_rxOff (s : State) : (drawn s).rxOff = s.rxOff := rfl
@[simp] theorem drawn_lbOff (s : State) : (drawn s).lbOff = s.lbOff := rfl
@[simp] theorem drawn_sockq (s : State) : (drawn s).sockq = s.sockq := rfl
@[simp] theorem drawn_wireOut (s : State) : (drawn s).wireOut = s.wireOut := rfl
@[simp] theorem drawn_history (s : State) : (drawn s).history = s.history := rfl
@[simp] theorem drawn_busOut (s : State) : (drawn s).busOut = s.busOut := rfl
@[simp] theorem drawn_draws (s : State) : (drawn s).draws = s.draws + 1 := rfl
@[simp] theorem drawn_sched (s : State) : (drawn s).sched = s.sched := rfl
@[simp] theorem drawn_txDue (s : State) : (drawn s).txDue = s.txDue := rfl
@[simp] theorem drawn_rxDue (s : State) : (drawn s).rxDue = s.rxDue := rfl

@[simp] theorem assertIrq_cfg (s : State) : (assertIrq s).cfg = s.cfg := rfl
@[simp] theorem assertIrq_regs (s : State) : (assertIrq s).regs = s.regs := rfl
@[simp] theorem assertIrq_bd (s : State) : (assertIrq s).bd = s.bd := rfl
@[simp] theorem assertIrq_tx (s : State) : (assertIrq s).tx = s.tx := rfl
@[simp] theorem assertIrq_rx (s : State) : (assertIrq s).rx = s.rx := rfl
@[simp] theorem assertIrq_irq (s : State) : (assertIrq s).irq = true := rfl
@[simp] theorem assertIrq_stop (s : State) : (assertIrq s).stop = s.stop := rfl
@[simp] theorem assertIrq_fault (s : State) : (assertIrq s).fault = s.fault := rfl
@[simp] theorem assertIrq_mem (s : State) : (assertIrq s).mem = s.mem := rfl
@[simp] theorem assertIrq_txs (s : State) : (assertIrq s).txs = s.txs := rfl
@[simp] theorem assertIrq_rxOff (s : State) : (assertIrq s).rxOff = s.rxOff := rfl
@[simp] theorem assertIrq_lbOff (s : State) : (assertIrq s).lbOff = s.lbOff := rfl
@[simp] theorem assertIrq_sockq (s : State) : (assertIrq s).sockq = s.sockq := rfl
@[simp] theorem assertIrq_wireOut (s : State) : (assertIrq s).wireOut = s.wireOut := rfl
@[simp] theorem assertIrq_history (s : State) : (assertIrq s).history = s.history ++ [.irqAssert] := rfl
@[simp] theorem assertIrq_busOut (s : State) : (assertIrq s).busOut = s.busOut := rfl
@[simp] theorem assertIrq_draws (s : State) : (assertIrq s).draws = s.draws := rfl
@[simp] theorem assertIrq_sched (s : State) : (assertIrq s).sched = s.sched := rfl
@[simp] theorem assertIrq_txDue (s : State) : (assertIrq s).txDue = s.txDue := rfl
@[simp] theorem assertIrq_rxDue (s : State) : (assertIrq s).rxDue = s.rxDue := rfl

@[simp] theorem requestStop_cfg (s : State) : (requestStop s).cfg = s.cfg := rfl
@[simp] theorem requestStop_regs (s : State) : (requestStop s).regs = s.regs := rfl
@[simp] theorem requestStop_bd (s : State) : (requestStop s).bd = s.bd := rfl
@[simp] theorem requestStop_tx (s : State) : (requestStop s).tx = s.tx := rfl
@[simp] theorem requestStop_rx (s : State) : (requestStop s).rx = s.rx := rfl
@[simp] theorem requestStop_irq (s : State) : (requestStop s).irq = s.irq := rfl
@[simp] theorem requestStop_stop (s : State) : (requestStop s).stop = true := rfl
@[simp] theorem requestStop_fault (s : State) : (requestStop s).fault = s.fault := rfl
@[simp] theorem requestStop_mem (s : State) : (requestStop s).mem = s.mem := rfl
@[simp] theorem requestStop_txs (s : State) : (requestStop s).txs = s.txs := rfl
@[simp] theorem requestStop_rxOff (s : State) : (requestStop s).rxOff = s.rxOff := rfl
@[simp] theorem requestStop_lbOff (s : State) : (requestStop s).lbOff = s.lbOff := rfl
@[simp] theorem requestStop_sockq (s : State) : (requestStop s).sockq = s.sockq := rfl
@[simp] theorem requestStop_wireOut (s : State) : (requestStop s).wireOut = s.wireOut := rfl
@[simp] theorem requestStop_history (s : State) : (requestStop s).history = s.history ++ [.stopRequest] := rfl
@[simp] theorem requestStop_busOut (s : State) : (requestStop s).busOut = s.busOut := rfl
@[simp] theorem requestStop_draws (s : State) : (requestStop s).draws = s.draws := rfl
@[simp] theorem requestStop_sched (s : State) : (requestStop s).sched = s.sched := rfl
@[simp] theorem requestStop_txDue (s : State) : (requestStop s).txDue = s.txDue := rfl
@[simp] theorem requestStop_rxDue (s : State) : (requestStop s).rxDue = s.rxDue := rfl

@[simp] theorem afterFault_cfg (f : DevFault) (s : State) : (s.afterFault f).cfg = s.cfg := rfl
@[simp] theorem afterFault_regs (f : DevFault) (s : State) : (s.afterFault f).regs = s.regs := rfl
@[simp] theorem afterFault_bd (f : DevFault) (s : State) : (s.afterFault f).bd = s.bd := rfl
@[simp] theorem afterFault_tx (f : DevFault) (s : State) : (s.afterFault f).tx = s.tx := rfl
@[simp] theorem afterFault_rx (f : DevFault) (s : State) : (s.afterFault f).rx = s.rx := rfl
@[simp] theorem afterFault_irq (f : DevFault) (s : State) : (s.afterFault f).irq = s.irq := rfl
@[simp] theorem afterFault_stop (f : DevFault) (s : State) : (s.afterFault f).stop = s.stop := rfl
@[simp] theorem afterFault_fault (f : DevFault) (s : State) : (s.afterFault f).fault = (s.fault <|> some f) := rfl
@[simp] theorem afterFault_mem (f : DevFault) (s : State) : (s.afterFault f).mem = s.mem := rfl
@[simp] theorem afterFault_txs (f : DevFault) (s : State) : (s.afterFault f).txs = s.txs := rfl
@[simp] theorem afterFault_rxOff (f : DevFault) (s : State) : (s.afterFault f).rxOff = s.rxOff := rfl
@[simp] theorem afterFault_lbOff (f : DevFault) (s : State) : (s.afterFault f).lbOff = s.lbOff := rfl
@[simp] theorem afterFault_sockq (f : DevFault) (s : State) : (s.afterFault f).sockq = s.sockq := rfl
@[simp] theorem afterFault_wireOut (f : DevFault) (s : State) : (s.afterFault f).wireOut = s.wireOut := rfl
@[simp] theorem afterFault_history (f : DevFault) (s : State) : (s.afterFault f).history = s.history ++ [.fault f] := rfl
@[simp] theorem afterFault_busOut (f : DevFault) (s : State) : (s.afterFault f).busOut = s.busOut := rfl
@[simp] theorem afterFault_draws (f : DevFault) (s : State) : (s.afterFault f).draws = s.draws := rfl
@[simp] theorem afterFault_sched (f : DevFault) (s : State) : (s.afterFault f).sched = s.sched := rfl
@[simp] theorem afterFault_txDue (f : DevFault) (s : State) : (s.afterFault f).txDue = s.txDue := rfl
@[simp] theorem afterFault_rxDue (f : DevFault) (s : State) : (s.afterFault f).rxDue = s.rxDue := rfl

@[simp] theorem bdWrite_cfg (i : Nat) (v : Word) (s : State) : (bdWrite i v s).cfg = s.cfg := rfl
@[simp] theorem bdWrite_regs (i : Nat) (v : Word) (s : State) : (bdWrite i v s).regs = s.regs := rfl
@[simp] theorem bdWrite_bd (i : Nat) (v : Word) (s : State) : (bdWrite i v s).bd = s.bd.set i v := rfl
@[simp] theorem bdWrite_tx (i : Nat) (v : Word) (s : State) : (bdWrite i v s).tx = s.tx := rfl
@[simp] theorem bdWrite_rx (i : Nat) (v : Word) (s : State) : (bdWrite i v s).rx = s.rx := rfl
@[simp] theorem bdWrite_irq (i : Nat) (v : Word) (s : State) : (bdWrite i v s).irq = s.irq := rfl
@[simp] theorem bdWrite_stop (i : Nat) (v : Word) (s : State) : (bdWrite i v s).stop = s.stop := rfl
@[simp] theorem bdWrite_fault (i : Nat) (v : Word) (s : State) : (bdWrite i v s).fault = s.fault := rfl
@[simp] theorem bdWrite_mem (i : Nat) (v : Word) (s : State) : (bdWrite i v s).mem = s.mem := rfl
@[simp] theorem bdWrite_txs (i : Nat) (v : Word) (s : State) : (bdWrite i v s).txs = s.txs := rfl
@[simp] theorem bdWrite_rxOff (i : Nat) (v : Word) (s : State) : (bdWrite i v s).rxOff = s.rxOff := rfl
@[simp] theorem bdWrite_lbOff (i : Nat) (v : Word) (s : State) : (bdWrite i v s).lbOff = s.lbOff := rfl
@[simp] theorem bdWrite_sockq (i : Nat) (v : Word) (s : State) : (bdWrite i v s).sockq = s.sockq := rfl
@[simp] theorem bdWrite_wireOut (i : Nat) (v : Word) (s : State) : (bdWrite i v s).wireOut = s.wireOut := rfl
@[simp] theorem bdWrite_history (i : Nat) (v : Word) (s : State) : (bdWrite i v s).history = s.history := rfl
@[simp] theorem bdWrite_busOut (i : Nat) (v : Word) (s : State) : (bdWrite i v s).busOut = s.busOut := rfl
@[simp] theorem bdWrite_draws (i : Nat) (v : Word) (s : State) : (bdWrite i v s).draws = s.draws := rfl
@[simp] theorem bdWrite_sched (i : Nat) (v : Word) (s : State) : (bdWrite i v s).sched = s.sched := rfl
@[simp] theorem bdWrite_txDue (i : Nat) (v : Word) (s : State) : (bdWrite i v s).txDue = s.txDue := rfl
@[simp] theorem bdWrite_rxDue (i : Nat) (v : Word) (s : State) : (bdWrite i v s).rxDue = s.rxDue := rfl

@[simp] theorem raiseSource_cfg (src : IntSrc) (s : State) : (raiseSource src s).cfg = s.cfg := rfl
@[simp] theorem raiseSource_regs (src : IntSrc) (s : State) : (raiseSource src s).regs = { s.regs with intSource := setBit s.regs.intSource (intBit src) } := rfl
@[simp] theorem raiseSource_bd (src : IntSrc) (s : State) : (raiseSource src s).bd = s.bd := rfl
@[simp] theorem raiseSource_tx (src : IntSrc) (s : State) : (raiseSource src s).tx = s.tx := rfl
@[simp] theorem raiseSource_rx (src : IntSrc) (s : State) : (raiseSource src s).rx = s.rx := rfl
@[simp] theorem raiseSource_irq (src : IntSrc) (s : State) : (raiseSource src s).irq = s.irq := rfl
@[simp] theorem raiseSource_stop (src : IntSrc) (s : State) : (raiseSource src s).stop = s.stop := rfl
@[simp] theorem raiseSource_fault (src : IntSrc) (s : State) : (raiseSource src s).fault = s.fault := rfl
@[simp] theorem raiseSource_mem (src : IntSrc) (s : State) : (raiseSource src s).mem = s.mem := rfl
@[simp] theorem raiseSource_txs (src : IntSrc) (s : State) : (raiseSource src s).txs = s.txs := rfl
@[simp] theorem raiseSource_rxOff (src : IntSrc) (s : State) : (raiseSource src s).rxOff = s.rxOff := rfl
@[simp] theorem raiseSource_lbOff (src : IntSrc) (s : State) : (raiseSource src s).lbOff = s.lbOff := rfl
@[simp] theorem raiseSource_sockq (src : IntSrc) (s : State) : (raiseSource src s).sockq = s.sockq := rfl
@[simp] theorem raiseSource_wireOut (src : IntSrc) (s : State) : (raiseSource src s).wireOut = s.wireOut := rfl
@[simp] theorem raiseSource_history (src : IntSrc) (s : State) : (raiseSource src s).history = s.history := rfl
@[simp] theorem raiseSource_busOut (src : IntSrc) (s : State) : (raiseSource src s).busOut = s.busOut := rfl
@[simp] theorem raiseSource_draws (src : IntSrc) (s : State) : (raiseSource src s).draws = s.draws := rfl
@[simp] theorem raiseSource_sched (src : IntSrc) (s : State) : (raiseSource src s).sched = s.sched := rfl
@[simp] theorem raiseSource_txDue (src : IntSrc) (s : State) : (raiseSource src s).txDue = s.txDue := rfl
@[simp] theorem raiseSource_rxDue (src : IntSrc) (s : State) : (raiseSource src s).rxDue = s.rxDue := rfl

@[simp] theorem txEnableEdge_cfg (s : State) : (txEnableEdge s).cfg = s.cfg := rfl
@[simp] theorem txEnableEdge_regs (s : State) : (txEnableEdge s).regs = s.regs := rfl
@[simp] theorem txEnableEdge_bd (s : State) : (txEnableEdge s).bd = s.bd := rfl
@[simp] theorem txEnableEdge_rx (s : State) : (txEnableEdge s).rx = s.rx := rfl
@[simp] theorem txEnableEdge_irq (s : State) : (txEnableEdge s).irq = s.irq := rfl
@[simp] theorem txEnableEdge_stop (s : State) : (txEnableEdge s).stop = s.stop := rfl
@[simp] theorem txEnableEdge_fault (s : State) : (txEnableEdge s).fault = s.fault := rfl
@[simp] theorem txEnableEdge_mem (s : State) : (txEnableEdge s).mem = s.mem := rfl
@[simp] theorem txEnableEdge_txs (s : State) : (txEnableEdge s).txs = s.txs := rfl
@[simp] theorem txEnableEdge_rxOff (s : State) : (txEnableEdge s).rxOff = s.rxOff := rfl
@[simp] theorem txEnableEdge_lbOff (s : State) : (txEnableEdge s).lbOff = s.lbOff := rfl
@[simp] theorem txEnableEdge_sockq (s : State) : (txEnableEdge s).sockq = s.sockq := rfl
@[simp] theorem txEnableEdge_wireOut (s : State) : (txEnableEdge s).wireOut = s.wireOut := rfl
@[simp] theorem txEnableEdge_history (s : State) : (txEnableEdge s).history = s.history := rfl
@[simp] theorem txEnableEdge_busOut (s : State) : (txEnableEdge s).busOut = s.busOut := rfl
@[simp] theorem txEnableEdge_draws (s : State) : (txEnableEdge s).draws = s.draws := rfl
@[simp] theorem txEnableEdge_sched (s : State) : (txEnableEdge s).sched = s.sched := rfl
@[simp] theorem txEnableEdge_txDue (s : State) : (txEnableEdge s).txDue = false := rfl
@[simp] theorem txEnableEdge_rxDue (s : State) : (txEnableEdge s).rxDue = s.rxDue := rfl

@[simp] theorem rxEnableEdge_cfg (s : State) : (rxEnableEdge s).cfg = s.cfg := rfl
@[simp] theorem rxEnableEdge_regs (s : State) : (rxEnableEdge s).regs = s.regs := rfl
@[simp] theorem rxEnableEdge_bd (s : State) : (rxEnableEdge s).bd = s.bd := rfl
@[simp] theorem rxEnableEdge_tx (s : State) : (rxEnableEdge s).tx = s.tx := rfl
@[simp] theorem rxEnableEdge_irq (s : State) : (rxEnableEdge s).irq = s.irq := rfl
@[simp] theorem rxEnableEdge_stop (s : State) : (rxEnableEdge s).stop = s.stop := rfl
@[simp] theorem rxEnableEdge_fault (s : State) : (rxEnableEdge s).fault = s.fault := rfl
@[simp] theorem rxEnableEdge_mem (s : State) : (rxEnableEdge s).mem = s.mem := rfl
@[simp] theorem rxEnableEdge_txs (s : State) : (rxEnableEdge s).txs = s.txs := rfl
@[simp] theorem rxEnableEdge_rxOff (s : State) : (rxEnableEdge s).rxOff = s.rxOff := rfl
@[simp] theorem rxEnableEdge_lbOff (s : State) : (rxEnableEdge s).lbOff = s.lbOff := rfl
@[simp] theorem rxEnableEdge_sockq (s : State) : (rxEnableEdge s).sockq = s.sockq := rfl
@[simp] theorem rxEnableEdge_wireOut (s : State) : (rxEnableEdge s).wireOut = s.wireOut := rfl
@[simp] theorem rxEnableEdge_history (s : State) : (rxEnableEdge s).history = s.history := rfl
@[simp] theorem rxEnableEdge_busOut (s : State) : (rxEnableEdge s).busOut = s.busOut := rfl
@[simp] theorem rxEnableEdge_draws (s : State) : (rxEnableEdge s).draws = s.draws := rfl
@[simp] theorem rxEnableEdge_sched (s : State) : (rxEnableEdge s).sched = s.sched := rfl
@[simp] theorem rxEnableEdge_txDue (s : State) : (rxEnableEdge s).txDue = s.txDue := rfl
@[simp] theorem rxEnableEdge_rxDue (s : State) : (rxEnableEdge s).rxDue = false := rfl

@[simp] theorem assertIrqIf_cfg (c : Bool) (s : State) : (assertIrqIf c s).cfg = s.cfg := by unfold assertIrqIf; split <;> rfl
@[simp] theorem assertIrqIf_regs (c : Bool) (s : State) : (assertIrqIf c s).regs = s.regs := by unfold assertIrqIf; split <;> rfl
@[simp] theorem assertIrqIf_bd (c : Bool) (s : State) : (assertIrqIf c s).bd = s.bd := by unfold assertIrqIf; split <;> rfl
@[simp] theorem assertIrqIf_tx (c : Bool) (s : State) : (assertIrqIf c s).tx = s.tx := by unfold assertIrqIf; split <;> rfl
@[simp] theorem assertIrqIf_rx (c : Bool) (s : State) : (assertIrqIf c s).rx = s.rx := by unfold assertIrqIf; split <;> rfl
@[simp] theorem assertIrqIf_stop (c : Bool) (s : State) : (assertIrqIf c s).stop = s.stop := by unfold assertIrqIf; split <;> rfl
@[simp] theorem assertIrqIf_fault (c : Bool) (s : State) : (assertIrqIf c s).fault = s.fault := by unfold assertIrqIf; split <;> rfl
@[simp] theorem assertIrqIf_mem (c : Bool) (s : State) : (assertIrqIf c s).mem = s.mem := by unfold assertIrqIf; split <;> rfl
@[simp] theorem assertIrqIf_txs (c : Bool) (s : State) : (assertIrqIf c s).txs = s.txs := by unfold assertIrqIf; split <;> rfl
@[simp] theorem assertIrqIf_rxOff (c : Bool) (s : State) : (assertIrqIf c s).rxOff = s.rxOff := by unfold assertIrqIf; split <;> rfl
@[simp] theorem assertIrqIf_lbOff (c : Bool) (s : State) : (assertIrqIf c s).lbOff = s.lbOff := by unfold assertIrqIf; split <;> rfl
@[simp] theorem assertIrqIf_sockq (c : Bool) (s : State) : (assertIrqIf c s).sockq = s.sockq := by unfold assertIrqIf; split <;> rfl
@[simp] theorem assertIrqIf_wireOut (c : Bool) (s : State) : (assertIrqIf c s).wireOut = s.wireOut := by unfold assertIrqIf; split <;> rfl
@[simp] theorem assertIrqIf_busOut (c : Bool) (s : State) : (assertIrqIf c s).busOut = s.busOut := by unfold assertIrqIf; split <;> rfl
@[simp] theorem assertIrqIf_draws (c : Bool) (s : State) : (assertIrqIf c s).draws = s.draws := by unfold assertIrqIf; split <;> rfl
@[simp] theorem assertIrqIf_sched (c : Bool) (s : State) : (assertIrqIf c s).sched = s.sched := by unfold assertIrqIf; split <;> rfl
@[simp] theorem assertIrqIf_txDue (c : Bool) (s : State) : (assertIrqIf c s).txDue = s.txDue := by unfold assertIrqIf; split <;> rfl
@[simp] theorem assertIrqIf_rxDue (c : Bool) (s : State) : (assertIrqIf c s).rxDue = s.rxDue := by unfold assertIrqIf; split <;> rfl

@[simp] theorem advanceCursor_cfg (src : RxSource) (n : Nat) (s : State) : (advanceCursor src n s).cfg = s.cfg := by cases src <;> rfl
@[simp] theorem advanceCursor_regs (src : RxSource) (n : Nat) (s : State) : (advanceCursor src n s).regs = s.regs := by cases src <;> rfl
@[simp] theorem advanceCursor_bd (src : RxSource) (n : Nat) (s : State) : (advanceCursor src n s).bd = s.bd := by cases src <;> rfl
@[simp] theorem advanceCursor_tx (src : RxSource) (n : Nat) (s : State) : (advanceCursor src n s).tx = s.tx := by cases src <;> rfl
@[simp] theorem advanceCursor_rx (src : RxSource) (n : Nat) (s : State) : (advanceCursor src n s).rx = s.rx := by cases src <;> rfl
@[simp] theorem advanceCursor_irq (src : RxSource) (n : Nat) (s : State) : (advanceCursor src n s).irq = s.irq := by cases src <;> rfl
@[simp] theorem advanceCursor_stop (src : RxSource) (n : Nat) (s : State) : (advanceCursor src n s).stop = s.stop := by cases src <;> rfl
@[simp] theorem advanceCursor_fault (src : RxSource) (n : Nat) (s : State) : (advanceCursor src n s).fault = s.fault := by cases src <;> rfl
@[simp] theorem advanceCursor_mem (src : RxSource) (n : Nat) (s : State) : (advanceCursor src n s).mem = s.mem := by cases src <;> rfl
@[simp] theorem advanceCursor_txs (src : RxSource) (n : Nat) (s : State) : (advanceCursor src n s).txs = s.txs := by cases src <;> rfl
@[simp] theorem advanceCursor_sockq (src : RxSource) (n : Nat) (s : State) : (advanceCursor src n s).sockq = s.sockq := by cases src <;> rfl
@[simp] theorem advanceCursor_wireOut (src : RxSource) (n : Nat) (s : State) : (advanceCursor src n s).wireOut = s.wireOut := by cases src <;> rfl
@[simp] theorem advanceCursor_history (src : RxSource) (n : Nat) (s : State) : (advanceCursor src n s).history = s.history := by cases src <;> rfl
@[simp] theorem advanceCursor_busOut (src : RxSource) (n : Nat) (s : State) : (advanceCursor src n s).busOut = s.busOut := by cases src <;> rfl
@[simp] theorem advanceCursor_draws (src : RxSource) (n : Nat) (s : State) : (advanceCursor src n s).draws = s.draws := by cases src <;> rfl
@[simp] theorem advanceCursor_sched (src : RxSource) (n : Nat) (s : State) : (advanceCursor src n s).sched = s.sched := by cases src <;> rfl
@[simp] theorem advanceCursor_txDue (src : RxSource) (n : Nat) (s : State) : (advanceCursor src n s).txDue = s.txDue := by cases src <;> rfl
@[simp] theorem advanceCursor_rxDue (src : RxSource) (n : Nat) (s : State) : (advanceCursor src n s).rxDue = s.rxDue := by cases src <;> rfl

@[simp] theorem txLog_cfg (n : Nat) (s : State) : (txLog n s).cfg = s.cfg := by unfold txLog; split <;> rfl
@[simp] theorem txLog_regs (n : Nat) (s : State) : (txLog n s).regs = s.regs := by unfold txLog; split <;> rfl
@[simp] theorem txLog_bd (n : Nat) (s : State) : (txLog n s).bd = s.bd := by unfold txLog; split <;> rfl
@[simp] theorem txLog_tx (n : Nat) (s : State) : (txLog n s).tx = s.tx := by unfold txLog; split <;> rfl
@[simp] theorem txLog_rx (n : Nat) (s : State) : (txLog n s).rx = s.rx := by unfold txLog; split <;> rfl
@[simp] theorem txLog_irq (n : Nat) (s : State) : (txLog n s).irq = s.irq := by unfold txLog; split <;> rfl
@[simp] theorem txLog_stop (n : Nat) (s : State) : (txLog n s).stop = s.stop := by unfold txLog; split <;> rfl
@[simp] theorem txLog_fault (n : Nat) (s : State) : (txLog n s).fault = s.fault := by unfold txLog; split <;> rfl
@[simp] theorem txLog_mem (n : Nat) (s : State) : (txLog n s).mem = s.mem := by unfold txLog; split <;> rfl
@[simp] theorem txLog_rxOff (n : Nat) (s : State) : (txLog n s).rxOff = s.rxOff := by unfold txLog; split <;> rfl
@[simp] theorem txLog_lbOff (n : Nat) (s : State) : (txLog n s).lbOff = s.lbOff := by unfold txLog; split <;> rfl
@[simp] theorem txLog_sockq (n : Nat) (s : State) : (txLog n s).sockq = s.sockq := by unfold txLog; split <;> rfl
@[simp] theorem txLog_wireOut (n : Nat) (s : State) : (txLog n s).wireOut = s.wireOut := by unfold txLog; split <;> rfl
@[simp] theorem txLog_history (n : Nat) (s : State) : (txLog n s).history = s.history := by unfold txLog; split <;> rfl
@[simp] theorem txLog_busOut (n : Nat) (s : State) : (txLog n s).busOut = s.busOut := by unfold txLog; split <;> rfl
@[simp] theorem txLog_draws (n : Nat) (s : State) : (txLog n s).draws = s.draws := by unfold txLog; split <;> rfl
@[simp] theorem txLog_sched (n : Nat) (s : State) : (txLog n s).sched = s.sched := by unfold txLog; split <;> rfl
@[simp] theorem txLog_txDue (n : Nat) (s : State) : (txLog n s).txDue = s.txDue := by unfold txLog; split <;> rfl
@[simp] theorem txLog_rxDue (n : Nat) (s : State) : (txLog n s).rxDue = s.rxDue := by unfold txLog; split <;> rfl

@[simp] theorem transportReset_cfg (s : State) : (transportReset s).cfg = s.cfg := by unfold transportReset; split <;> rfl
@[simp] theorem transportReset_regs (s : State) : (transportReset s).regs = s.regs := by unfold transportReset; split <;> rfl
@[simp] theorem transportReset_bd (s : State) : (transportReset s).bd = s.bd := by unfold transportReset; split <;> rfl
@[simp] theorem transportReset_tx (s : State) : (transportReset s).tx = s.tx := by unfold transportReset; split <;> rfl
@[simp] theorem transportReset_rx (s : State) : (transportReset s).rx = s.rx := by unfold transportReset; split <;> rfl
@[simp] theorem transportReset_irq (s : State) : (transportReset s).irq = s.irq := by unfold transportReset; split <;> rfl
@[simp] theorem transportReset_stop (s : State) : (transportReset s).stop = s.stop := by unfold transportReset; split <;> rfl
@[simp] theorem transportReset_fault (s : State) : (transportReset s).fault = s.fault := by unfold transportReset; split <;> rfl
@[simp] theorem transportReset_mem (s : State) : (transportReset s).mem = s.mem := by unfold transportReset; split <;> rfl
@[simp] theorem transportReset_wireOut (s : State) : (transportReset s).wireOut = s.wireOut := by unfold transportReset; split <;> rfl
@[simp] theorem transportReset_history (s : State) : (transportReset s).history = s.history := by unfold transportReset; split <;> rfl
@[simp] theorem transportReset_busOut (s : State) : (transportReset s).busOut = s.busOut := by unfold transportReset; split <;> rfl
@[simp] theorem transportReset_draws (s : State) : (transportReset s).draws = s.draws := by unfold transportReset; split <;> rfl
@[simp] theorem transportReset_sched (s : State) : (transportReset s).sched = s.sched := by unfold transportReset; split <;> rfl
@[simp] theorem transportReset_txDue (s : State) : (transportReset s).txDue = s.txDue := by unfold transportReset; split <;> rfl
@[simp] theorem transportReset_rxDue (s : State) : (transportReset s).rxDue = s.rxDue := by unfold transportReset; split <;> rfl

@[simp] theorem envArrive_cfg (f : Frame) (s : State) : (envArrive f s).cfg = s.cfg := by unfold envArrive; repeat (first | rfl | split)
@[simp] theorem envArrive_regs (f : Frame) (s : State) : (envArrive f s).regs = s.regs := by unfold envArrive; repeat (first | rfl | split)
@[simp] theorem envArrive_bd (f : Frame) (s : State) : (envArrive f s).bd = s.bd := by unfold envArrive; repeat (first | rfl | split)
@[simp] theorem envArrive_tx (f : Frame) (s : State) : (envArrive f s).tx = s.tx := by unfold envArrive; repeat (first | rfl | split)
@[simp] theorem envArrive_rx (f : Frame) (s : State) : (envArrive f s).rx = s.rx := by unfold envArrive; repeat (first | rfl | split)
@[simp] theorem envArrive_irq (f : Frame) (s : State) : (envArrive f s).irq = s.irq := by unfold envArrive; repeat (first | rfl | split)
@[simp] theorem envArrive_stop (f : Frame) (s : State) : (envArrive f s).stop = s.stop := by unfold envArrive; repeat (first | rfl | split)
@[simp] theorem envArrive_fault (f : Frame) (s : State) : (envArrive f s).fault = s.fault := by unfold envArrive; repeat (first | rfl | split)
@[simp] theorem envArrive_mem (f : Frame) (s : State) : (envArrive f s).mem = s.mem := by unfold envArrive; repeat (first | rfl | split)
@[simp] theorem envArrive_txs (f : Frame) (s : State) : (envArrive f s).txs = s.txs := by unfold envArrive; repeat (first | rfl | split)
@[simp] theorem envArrive_rxOff (f : Frame) (s : State) : (envArrive f s).rxOff = s.rxOff := by unfold envArrive; repeat (first | rfl | split)
@[simp] theorem envArrive_lbOff (f : Frame) (s : State) : (envArrive f s).lbOff = s.lbOff := by unfold envArrive; repeat (first | rfl | split)
@[simp] theorem envArrive_wireOut (f : Frame) (s : State) : (envArrive f s).wireOut = s.wireOut := by unfold envArrive; repeat (first | rfl | split)
@[simp] theorem envArrive_history (f : Frame) (s : State) : (envArrive f s).history = s.history := by unfold envArrive; repeat (first | rfl | split)
@[simp] theorem envArrive_busOut (f : Frame) (s : State) : (envArrive f s).busOut = s.busOut := by unfold envArrive; repeat (first | rfl | split)
@[simp] theorem envArrive_draws (f : Frame) (s : State) : (envArrive f s).draws = s.draws := by unfold envArrive; repeat (first | rfl | split)
@[simp] theorem envArrive_sched (f : Frame) (s : State) : (envArrive f s).sched = s.sched := by unfold envArrive; repeat (first | rfl | split)
@[simp] theorem envArrive_txDue (f : Frame) (s : State) : (envArrive f s).txDue = s.txDue := by unfold envArrive; repeat (first | rfl | split)
@[simp] theorem envArrive_rxDue (f : Frame) (s : State) : (envArrive f s).rxDue = s.rxDue := by unfold envArrive; repeat (first | rfl | split)

@[simp] theorem sockProbe_cfg (s : State) : (sockProbe s).2.cfg = s.cfg := by unfold sockProbe; split <;> rfl
@[simp] theorem sockProbe_regs (s : State) : (sockProbe s).2.regs = s.regs := by unfold sockProbe; split <;> rfl
@[simp] theorem sockProbe_bd (s : State) : (sockProbe s).2.bd = s.bd := by unfold sockProbe; split <;> rfl
@[simp] theorem sockProbe_tx (s : State) : (sockProbe s).2.tx = s.tx := by unfold sockProbe; split <;> rfl
@[simp] theorem sockProbe_rx (s : State) : (sockProbe s).2.rx = s.rx := by unfold sockProbe; split <;> rfl
@[simp] theorem sockProbe_irq (s : State) : (sockProbe s).2.irq = s.irq := by unfold sockProbe; split <;> rfl
@[simp] theorem sockProbe_stop (s : State) : (sockProbe s).2.stop = s.stop := by unfold sockProbe; split <;> rfl
@[simp] theorem sockProbe_fault (s : State) : (sockProbe s).2.fault = s.fault := by unfold sockProbe; split <;> rfl
@[simp] theorem sockProbe_mem (s : State) : (sockProbe s).2.mem = s.mem := by unfold sockProbe; split <;> rfl
@[simp] theorem sockProbe_txs (s : State) : (sockProbe s).2.txs = s.txs := by unfold sockProbe; split <;> rfl
@[simp] theorem sockProbe_rxOff (s : State) : (sockProbe s).2.rxOff = s.rxOff := by unfold sockProbe; split <;> rfl
@[simp] theorem sockProbe_lbOff (s : State) : (sockProbe s).2.lbOff = s.lbOff := by unfold sockProbe; split <;> rfl
@[simp] theorem sockProbe_wireOut (s : State) : (sockProbe s).2.wireOut = s.wireOut := by unfold sockProbe; split <;> rfl
@[simp] theorem sockProbe_history (s : State) : (sockProbe s).2.history = s.history := by unfold sockProbe; split <;> rfl
@[simp] theorem sockProbe_busOut (s : State) : (sockProbe s).2.busOut = s.busOut := by unfold sockProbe; split <;> rfl
@[simp] theorem sockProbe_draws (s : State) : (sockProbe s).2.draws = s.draws := by unfold sockProbe; split <;> rfl
@[simp] theorem sockProbe_sched (s : State) : (sockProbe s).2.sched = s.sched := by unfold sockProbe; split <;> rfl
@[simp] theorem sockProbe_txDue (s : State) : (sockProbe s).2.txDue = s.txDue := by unfold sockProbe; split <;> rfl
@[simp] theorem sockProbe_rxDue (s : State) : (sockProbe s).2.rxDue = s.rxDue := by unfold sockProbe; split <;> rfl

@[simp] theorem sockRecv_cfg (s : State) : (sockRecv s).2.cfg = s.cfg := by unfold sockRecv; split <;> rfl
@[simp] theorem sockRecv_regs (s : State) : (sockRecv s).2.regs = s.regs := by unfold sockRecv; split <;> rfl
@[simp] theorem sockRecv_bd (s : State) : (sockRecv s).2.bd = s.bd := by unfold sockRecv; split <;> rfl
@[simp] theorem sockRecv_tx (s : State) : (sockRecv s).2.tx = s.tx := by unfold sockRecv; split <;> rfl
@[simp] theorem sockRecv_rx (s : State) : (sockRecv s).2.rx = s.rx := by unfold sockRecv; split <;> rfl
@[simp] theorem sockRecv_irq (s : State) : (sockRecv s).2.irq = s.irq := by unfold sockRecv; split <;> rfl
@[simp] theorem sockRecv_stop (s : State) : (sockRecv s).2.stop = s.stop := by unfold sockRecv; split <;> rfl
@[simp] theorem sockRecv_fault (s : State) : (sockRecv s).2.fault = s.fault := by unfold sockRecv; split <;> rfl
@[simp] theorem sockRecv_mem (s : State) : (sockRecv s).2.mem = s.mem := by unfold sockRecv; split <;> rfl
@[simp] theorem sockRecv_txs (s : State) : (sockRecv s).2.txs = s.txs := by unfold sockRecv; split <;> rfl
@[simp] theorem sockRecv_rxOff (s : State) : (sockRecv s).2.rxOff = s.rxOff := by unfold sockRecv; split <;> rfl
@[simp] theorem sockRecv_lbOff (s : State) : (sockRecv s).2.lbOff = s.lbOff := by unfold sockRecv; split <;> rfl
@[simp] theorem sockRecv_wireOut (s : State) : (sockRecv s).2.wireOut = s.wireOut := by unfold sockRecv; split <;> rfl
@[simp] theorem sockRecv_history (s : State) : (sockRecv s).2.history = s.history := by unfold sockRecv; split <;> rfl
@[simp] theorem sockRecv_busOut (s : State) : (sockRecv s).2.busOut = s.busOut := by unfold sockRecv; split <;> rfl
@[simp] theorem sockRecv_draws (s : State) : (sockRecv s).2.draws = s.draws := by unfold sockRecv; split <;> rfl
@[simp] theorem sockRecv_sched (s : State) : (sockRecv s).2.sched = s.sched := by unfold sockRecv; split <;> rfl
@[simp] theorem sockRecv_txDue (s : State) : (sockRecv s).2.txDue = s.txDue := by unfold sockRecv; split <;> rfl
@[simp] theorem sockRecv_rxDue (s : State) : (sockRecv s).2.rxDue = s.rxDue := by unfold sockRecv; split <;> rfl

@[simp] theorem txSend_cfg (p : Frame) (s : State) : (txSend p s).2.cfg = s.cfg := by unfold txSend; repeat (first | rfl | split)
@[simp] theorem txSend_regs (p : Frame) (s : State) : (txSend p s).2.regs = s.regs := by unfold txSend; repeat (first | rfl | split)
@[simp] theorem txSend_bd (p : Frame) (s : State) : (txSend p s).2.bd = s.bd := by unfold txSend; repeat (first | rfl | split)
@[simp] theorem txSend_tx (p : Frame) (s : State) : (txSend p s).2.tx = s.tx := by unfold txSend; repeat (first | rfl | split)
@[simp] theorem txSend_rx (p : Frame) (s : State) : (txSend p s).2.rx = s.rx := by unfold txSend; repeat (first | rfl | split)
@[simp] theorem txSend_irq (p : Frame) (s : State) : (txSend p s).2.irq = s.irq := by unfold txSend; repeat (first | rfl | split)
@[simp] theorem txSend_stop (p : Frame) (s : State) : (txSend p s).2.stop = s.stop := by unfold txSend; repeat (first | rfl | split)
@[simp] theorem txSend_fault (p : Frame) (s : State) : (txSend p s).2.fault = s.fault := by unfold txSend; repeat (first | rfl | split)
@[simp] theorem txSend_mem (p : Frame) (s : State) : (txSend p s).2.mem = s.mem := by unfold txSend; repeat (first | rfl | split)
@[simp] theorem txSend_rxOff (p : Frame) (s : State) : (txSend p s).2.rxOff = s.rxOff := by unfold txSend; repeat (first | rfl | split)
@[simp] theorem txSend_lbOff (p : Frame) (s : State) : (txSend p s).2.lbOff = s.lbOff := by unfold txSend; repeat (first | rfl | split)
@[simp] theorem txSend_sockq (p : Frame) (s : State) : (txSend p s).2.sockq = s.sockq := by unfold txSend; repeat (first | rfl | split)
@[simp] theorem txSend_busOut (p : Frame) (s : State) : (txSend p s).2.busOut = s.busOut := by unfold txSend; repeat (first | rfl | split)
@[simp] theorem txSend_draws (p : Frame) (s : State) : (txSend p s).2.draws = s.draws := by unfold txSend; repeat (first | rfl | split)
@[simp] theorem txSend_sched (p : Frame) (s : State) : (txSend p s).2.sched = s.sched := by unfold txSend; repeat (first | rfl | split)
@[simp] theorem txSend_txDue (p : Frame) (s : State) : (txSend p s).2.txDue = s.txDue := by unfold txSend; repeat (first | rfl | split)
@[simp] theorem txSend_rxDue (p : Frame) (s : State) : (txSend p s).2.rxDue = s.rxDue := by unfold txSend; repeat (first | rfl | split)

@[simp] theorem beginTick_cfg (s : State) : (beginTick s).cfg = s.cfg := by unfold beginTick; split <;> rfl
@[simp] theorem beginTick_regs (s : State) : (beginTick s).regs = s.regs := by unfold beginTick; split <;> rfl
@[simp] theorem beginTick_bd (s : State) : (beginTick s).bd = s.bd := by unfold beginTick; split <;> rfl
@[simp] theorem beginTick_tx (s : State) : (beginTick s).tx = s.tx := by unfold beginTick; split <;> rfl
@[simp] theorem beginTick_rx (s : State) : (beginTick s).rx = s.rx := by unfold beginTick; split <;> rfl
@[simp] theorem beginTick_irq (s : State) : (beginTick s).irq = s.irq := by unfold beginTick; split <;> rfl
@[simp] theorem beginTick_stop (s : State) : (beginTick s).stop = s.stop := by unfold beginTick; split <;> rfl
@[simp] theorem beginTick_fault (s : State) : (beginTick s).fault = s.fault := by unfold beginTick; split <;> rfl
@[simp] theorem beginTick_mem (s : State) : (beginTick s).mem = s.mem := by unfold beginTick; split <;> rfl
@[simp] theorem beginTick_txs (s : State) : (beginTick s).txs = s.txs := by unfold beginTick; split <;> rfl
@[simp] theorem beginTick_rxOff (s : State) : (beginTick s).rxOff = s.rxOff := by unfold beginTick; split <;> rfl
@[simp] theorem beginTick_lbOff (s : State) : (beginTick s).lbOff = s.lbOff := by unfold beginTick; split <;> rfl
@[simp] theorem beginTick_sockq (s : State) : (beginTick s).sockq = s.sockq := by unfold beginTick; split <;> rfl
@[simp] theorem beginTick_wireOut (s : State) : (beginTick s).wireOut = s.wireOut := by unfold beginTick; split <;> rfl
@[simp] theorem beginTick_history (s : State) : (beginTick s).history = s.history := by unfold beginTick; split <;> rfl
@[simp] theorem beginTick_busOut (s : State) : (beginTick s).busOut = s.busOut := by unfold beginTick; split <;> rfl
@[simp] theorem beginTick_draws (s : State) : (beginTick s).draws = s.draws := by unfold beginTick; split <;> rfl
@[simp] theorem beginTick_sched (s : State) : (beginTick s).sched = s.sched := by unfold beginTick; split <;> rfl

end Sys2Proof.Machine
end

