-- ==== Sys2Proof/Laws/Ops.lean ====
section
/-! SUPPORT. What each shared operation can do, said once. -/

namespace Sys2Proof.Machine

/-! ### DMA -/

theorem dmaStep_misaligned {agent : Agent} {a : Word} {s : State} {go : Result} (h : aligned4 a = false) :
    dmaStep agent a s go = .fault (.raised (.misalignedBuffer agent a)) := if_pos h

theorem dmaStep_refused {agent : Agent} {a : Word} {s : State} {go : Result} (h : aligned4 a = true)
    (h' : admitsWord s.cfg a = false) : dmaStep agent a s go = .next s := by
  rw [dmaStep, if_neg (by rw [h]; decide), if_pos h']

theorem dmaStep_admitted {agent : Agent} {a : Word} {s : State} {go : Result} (h : aligned4 a = true)
    (h' : admitsWord s.cfg a = true) : dmaStep agent a s go = go := by
  rw [dmaStep, if_neg (by rw [h]; decide), if_neg (by rw [h']; decide)]

/-- A DMA step with a next state: the engine was stuck, or the access was admitted. -/
theorem dmaStep_next {agent : Agent} {a : Word} {s t : State} {go : Result} (h : dmaStep agent a s go = .next t) :
    aligned4 a = true ∧ ((admitsWord s.cfg a = false ∧ t = s) ∨ (admitsWord s.cfg a = true ∧ go = .next t)) := by
  cases ha : aligned4 a with
  | false => rw [dmaStep_misaligned ha] at h; cases h
  | true =>
    cases hm : admitsWord s.cfg a with
    | false => rw [dmaStep_refused ha hm] at h; exact ⟨rfl, .inl ⟨rfl, (Host.Outcome.next.inj h).symm⟩⟩
    | true => rw [dmaStep_admitted ha hm] at h; exact ⟨rfl, .inr ⟨rfl, h⟩⟩

/-- The two low address bits are 0 exactly at the multiples of 4. -/
theorem aligned4_iff (a : Word) : aligned4 a = true ↔ a.toNat % 4 = 0 := by
  rw [aligned4, beq_iff_eq, ← BitVec.toNat_inj, BitVec.extractLsb'_toNat]
  simp

/-- A memory with no holes admits every word. -/
theorem admitsWord_of_no_holes {cfg : Config} (h : cfg.memHoles = []) (a : Word) : admitsWord cfg a = true := by
  simp [admitsWord, admitsByte, h]

/-! ### Descriptor RAM -/

theorem bdRead_ok {agent : Agent} {i : Nat} {s : State} {w : Word} :
    bdRead agent i s = .ok w ↔ s.bd[i]? = some w := by
  unfold bdRead
  cases s.bd[i]? <;> simp

theorem bdRead_error {agent : Agent} {i : Nat} {s : State} {f : DevFault} :
    bdRead agent i s = .error f ↔ s.bd.length ≤ i ∧ f = .bdIndexOutOfRange agent i := by
  unfold bdRead
  cases h : s.bd[i]? with
  | none => simp [List.getElem?_eq_none_iff.1 h, eq_comm]
  | some w =>
    have := (List.getElem?_eq_some_iff.1 h).1
    simp only [reduceCtorEq, false_iff, not_and]
    omega

theorem bdReadPair_ok {agent : Agent} {idx : Word} {s : State} {w0 w1 : Word} :
    bdReadPair agent idx s = .ok (w0, w1) ↔ s.bd[idx.toNat]? = some w0 ∧ s.bd[(idx + 1).toNat]? = some w1 := by
  unfold bdReadPair
  generalize (idx + 1).toNat = j
  cases h0 : bdRead agent idx.toNat s with
  | error f =>
    have := (bdRead_error.1 h0).1
    simp [List.getElem?_eq_none_iff.2 this]
  | ok v0 =>
    rw [bdRead_ok] at h0
    cases h1 : bdRead agent j s with
    | error f =>
      have := (bdRead_error.1 h1).1
      simp only [reduceCtorEq, false_iff, not_and]
      intro _
      rw [List.getElem?_eq_none_iff.2 this]
      simp
    | ok v1 =>
      rw [bdRead_ok] at h1
      simp [h0, h1]

theorem bdReadPair_error {agent : Agent} {idx : Word} {s : State} {f : DevFault} :
    bdReadPair agent idx s = .error f ↔
      (s.bd.length ≤ idx.toNat ∧ f = .bdIndexOutOfRange agent idx.toNat) ∨
        (idx.toNat < s.bd.length ∧ s.bd.length ≤ (idx + 1).toNat ∧
          f = .bdIndexOutOfRange agent (idx + 1).toNat) := by
  unfold bdReadPair
  generalize (idx + 1).toNat = j
  cases h0 : bdRead agent idx.toNat s with
  | error g =>
    obtain ⟨h, rfl⟩ := bdRead_error.1 h0
    have h' : ¬ idx.toNat < s.bd.length := by omega
    simp [h, h', eq_comm]
  | ok v0 =>
    have hv := (List.getElem?_eq_some_iff.1 (bdRead_ok.1 h0)).1
    have h' : ¬ s.bd.length ≤ idx.toNat := by omega
    cases h1 : bdRead agent j s with
    | error g =>
      obtain ⟨h, rfl⟩ := bdRead_error.1 h1
      simp [h, h', hv, eq_comm]
    | ok v1 =>
      have hv1 := (List.getElem?_eq_some_iff.1 (bdRead_ok.1 h1)).1
      have h'' : ¬ s.bd.length ≤ j := by omega
      simp [h', h'']

@[simp] theorem bdWrite_bd_length (i : Nat) (v : Word) (s : State) : (bdWrite i v s).bd.length = s.bd.length := by
  simp

/-! ### Staging buffers -/

@[simp] theorem fifoTake_length (fifo : List Byte) (n c : Nat) : (fifoTake fifo n c).length = n := by
  simp only [fifoTake, List.length_append, List.length_take, List.length_map, List.length_range]
  omega

/-- Where the bytes were staged, taking them draws nothing. -/
theorem fifoTake_of_staged {fifo : List Byte} {n : Nat} (c : Nat) (h : n ≤ fifo.length) :
    fifoTake fifo n c = fifo.take n := by
  simp [fifoTake, Nat.sub_eq_zero_of_le h]

theorem fifoWrite_length (fifo : List Byte) (i : Nat) (bs : List Byte) (c : Nat) :
    (fifoWrite fifo i bs c).length = max fifo.length (i + bs.length) := by
  simp only [fifoWrite, List.length_append, fifoTake_length, List.length_drop]
  omega

/-- The bytes staged before and those just written, in order. -/
theorem take_fifoWrite {fifo : List Byte} {i : Nat} (bs : List Byte) (c : Nat) (h : i ≤ fifo.length) :
    (fifoWrite fifo i bs c).take (i + bs.length) = fifo.take i ++ bs := by
  rw [fifoWrite, fifoTake_of_staged c h]
  exact List.take_left' (by simp [h])

/-! ### Transport -/

theorem takeAt_length_le (stream : List Byte) (cursor k : Nat) : (takeAt stream cursor k).length ≤ k := by
  simp [takeAt]

theorem encLen_length (cfg : Config) (n : Nat) : (encLen cfg n).length = cfg.lenFieldBytes := by
  unfold encLen
  split
  · cases cfg.hostEndian <;> simp
  · simp

/-- The transport accepts the whole frame and records it, or accepts nothing and changes nothing. -/
theorem txSend_cases (p : Frame) (s : State) :
    (sendAccepted s = true ∧ (txSend p s).1 = p.length ∧
        (txSend p s).2.history = s.history ++ [.frameSent p]) ∨
      (sendAccepted s = false ∧ txSend p s = (0, s)) := by
  unfold txSend
  cases h : sendAccepted s
  · simp
  · left
    cases s.cfg.backend <;> simp

theorem sockRecv_some {s : State} {f : Frame} (h : (sockRecv s).1 = some f) :
    ∃ q, s.sockq = f :: q ∧ 1 ≤ f.length ∧ sockRecv s = (some f, { s with sockq := q }) := by
  unfold sockRecv at h ⊢
  cases hq : s.sockq with
  | nil => simp [hq] at h
  | cons g q =>
    by_cases hg : g.length = 0
    · simp [hq, hg] at h
    · simp only [hq, hg, if_false, Option.some.injEq] at h
      subst h
      exact ⟨q, rfl, by omega, by simp [hg]⟩

/-! ### Enable edges -/

/-- MODER stored. -/
def storeModer (v : Word) (s : State) : State := { s with regs := { s.regs with moder := v } }

/-- TXEN goes from 0 to 1. -/
def TxEdge (old v : Word) : Prop := moderTxEn old = false ∧ moderTxEn v = true

/-- RXEN goes from 0 to 1. -/
def RxEdge (old v : Word) : Prop := moderRxEn old = false ∧ moderRxEn v = true

/-- A MODER write with RST = 0 by its edges (R185, R186). -/
theorem writeModer_cases (v : Word) (s : State) :
    (TxEdge s.regs.moder v ∧ RxEdge s.regs.moder v ∧
        writeModer v s = rxEnableEdge (txEnableEdge (storeModer v s))) ∨
      (TxEdge s.regs.moder v ∧ ¬ RxEdge s.regs.moder v ∧ writeModer v s = txEnableEdge (storeModer v s)) ∨
      (¬ TxEdge s.regs.moder v ∧ RxEdge s.regs.moder v ∧ writeModer v s = rxEnableEdge (storeModer v s)) ∨
      (¬ TxEdge s.regs.moder v ∧ ¬ RxEdge s.regs.moder v ∧ writeModer v s = storeModer v s) := by
  unfold writeModer TxEdge RxEdge storeModer
  by_cases h1 : moderTxEn s.regs.moder = false ∧ moderTxEn v = true <;>
    by_cases h2 : moderRxEn s.regs.moder = false ∧ moderRxEn v = true
  · exact .inl ⟨h1, h2, by simp only [if_pos h1, if_pos h2]⟩
  · exact .inr (.inl ⟨h1, h2, by simp only [if_pos h1, if_neg h2]⟩)
  · exact .inr (.inr (.inl ⟨h1, h2, by simp only [if_neg h1, if_pos h2]⟩))
  · exact .inr (.inr (.inr ⟨h1, h2, by simp only [if_neg h1, if_neg h2]⟩))

/-! ### Reset -/

theorem deviceReset_next {s t : State} (h : deviceReset s = .next t) : t = resetState s := by
  unfold deviceReset at h
  split at h
  · simp [raise] at h
  · simpa using h.symm

@[simp] theorem resetState_cfg (s : State) : (resetState s).cfg = s.cfg := by simp [resetState]
@[simp] theorem resetState_regs (s : State) : (resetState s).regs = s.regs.afterReset := by simp [resetState]
@[simp] theorem resetState_bd (s : State) : (resetState s).bd = bdRamAfterReset s.cfg s.draws := by
  simp [resetState]
@[simp] theorem resetState_tx (s : State) : (resetState s).tx = TxWork.afterReset s.cfg s.draws := by
  simp [resetState]
@[simp] theorem resetState_rx (s : State) : (resetState s).rx = RxWork.afterReset s.cfg s.draws := by
  simp [resetState]
@[simp] theorem resetState_irq (s : State) : (resetState s).irq = false := by simp [resetState]
@[simp] theorem resetState_mem (s : State) : (resetState s).mem = s.mem := by simp [resetState]

theorem bdRamAfterReset_length (cfg : Config) (c : Nat) : (bdRamAfterReset cfg c).length = cfg.ringWords := by
  unfold bdRamAfterReset
  cases cfg.bdRamReset <;> simp

/-- A constructed device is one that a device reset leaves as it is, but for the draws (R441). -/
theorem resetState_construct (cfg : Config) :
    resetState { State.construct cfg with draws := 0 } = State.construct cfg := by
  unfold resetState transportReset
  cases h : cfg.backend <;> simp [State.construct, h, drawn, RegFile.constructed, RegFile.afterReset]

end Sys2Proof.Machine
end

