-- ==== Sys2Proof/Laws/Inversion.lean ====
section
/-! SUPPORT. What each operation can do, said once: if it answers a next state, then that is one of these. -/

namespace Sys2Proof.Machine

theorem execWrModer_next {v : Word} {s t : State} (h : exec (.wrModer v) s = .next t) :
    (moderRst v = true ∧ t = resetState s) ∨ (moderRst v = false ∧ t = writeModer v s) := by
  rw [exec_wrModer, execWrModer] at h
  cases hv : moderRst v
  · rw [if_neg (by rw [hv]; decide)] at h
    exact .inr ⟨rfl, (Host.Outcome.next.inj h).symm⟩
  · rw [if_pos hv] at h
    exact .inl ⟨rfl, deviceReset_next h⟩

theorem execRdBd_next {i : Nat} {s t : State} (h : exec (.rdBd i) s = .next t) :
    ∃ w, s.bd[i]? = some w ∧ t = respond w s := by
  rw [exec_rdBd, execRdBd] at h
  cases hr : bdRead .bus i s with
  | ok w => rw [hr] at h; exact ⟨w, bdRead_ok.1 hr, (Host.Outcome.next.inj h).symm⟩
  | error f => rw [hr] at h; cases h

theorem execWrBd_next {i : Nat} {v : Word} {s t : State} (h : exec (.wrBd i v) s = .next t) :
    i < s.bd.length ∧ t = bdWrite i v s := by
  rw [exec_wrBd, execWrBd] at h
  split at h
  · exact ⟨‹_›, (Host.Outcome.next.inj h).symm⟩
  · cases h

theorem execTxWaitBd_next {s t : State} (h : exec .txWaitBd s = .next t) :
    ∃ w0 w1, s.bd[s.tx.idx.toNat]? = some w0 ∧ s.bd[(s.tx.idx + 1).toNat]? = some w1 ∧ t = txSnapshot w0 w1 s := by
  rw [exec_txWaitBd, execTxWaitBd] at h
  cases hp : bdReadPair .tx s.tx.idx s with
  | error f => rw [hp] at h; cases h
  | ok p =>
    rw [hp] at h
    exact ⟨p.1, p.2, (bdReadPair_ok.1 hp).1, (bdReadPair_ok.1 hp).2, (Host.Outcome.next.inj h).symm⟩

theorem execTxReadFifo_next {s t : State} (h : exec .txReadFifo s = .next t) :
    t = s ∨ (s.tx.sent < s.tx.len.toNat ∧ aligned4 (txDmaAddr s) = true ∧ t = txStage s) ∨
      (s.tx.len.toNat ≤ s.tx.sent ∧ t = { s with tx := { s.tx with state := .transmit } }) := by
  rw [exec_txReadFifo, execTxReadFifo] at h
  split at h
  · obtain ⟨ha, ⟨-, e⟩ | ⟨-, e⟩⟩ := dmaStep_next h
    · exact .inl e
    · exact .inr (.inl ⟨‹_›, ha, (Host.Outcome.next.inj e).symm⟩)
  · exact .inr (.inr ⟨Nat.le_of_not_lt ‹_›, (Host.Outcome.next.inj h).symm⟩)

theorem execTxTransmit_next {s t : State} (h : exec .txTransmit s = .next t) :
    s.tx.idx.toNat < s.bd.length ∧ t = txComplete s := by
  rw [exec_txTransmit, execTxTransmit] at h
  split at h
  · exact ⟨‹_›, (Host.Outcome.next.inj h).symm⟩
  · cases h

theorem execRxWaitBd_next {s t : State} (h : exec .rxWaitBd s = .next t) :
    ∃ w0 w1, s.bd[s.rx.idx.toNat]? = some w0 ∧ s.bd[(s.rx.idx + 1).toNat]? = some w1 ∧ t = rxSnapshot w0 w1 s := by
  rw [exec_rxWaitBd, execRxWaitBd] at h
  cases hp : bdReadPair .rx s.rx.idx s with
  | error f => rw [hp] at h; cases h
  | ok p =>
    rw [hp] at h
    exact ⟨p.1, p.2, (bdReadPair_ok.1 hp).1, (bdReadPair_ok.1 hp).2, (Host.Outcome.next.inj h).symm⟩

/-- A RECV step of the FILE variant: it stops the run, skips a runt, latches a receive error, or captures a payload
of at most `MAX_FRAME` bytes; it advances the cursor of its own source. -/
theorem execRxRecvFile_next {s t : State} (h : exec .rxRecvFile s = .next t) :
    ∃ n, t = requestStop (advanceCursor s.rx.src n s) ∨
      t = { advanceCursor s.rx.src n s with rx := { s.rx with state := .waitBd } } ∨
      t = { advanceCursor s.rx.src n s with rx := { s.rx with error := true } } ∨
      ∃ p : List Byte, p.length ≤ s.cfg.maxFrame ∧ t = rxCapture p (advanceCursor s.rx.src n s) := by
  have twice : ∀ a b, advanceCursor s.rx.src b (advanceCursor s.rx.src a s) = advanceCursor s.rx.src (a + b) s := by
    intro a b
    cases s.rx.src <;> simp [advanceCursor, Nat.add_assoc]
  have hrx : ∀ n, (advanceCursor s.rx.src n s).rx = s.rx := by intro n; cases s.rx.src <;> rfl
  rw [exec_rxRecvFile, execRxRecvFile, rxFileReadLen] at h
  dsimp only at h
  generalize takeAt (sourceBytes s.rx.src s) (sourceCursor s.rx.src s) s.cfg.lenFieldBytes = b at h
  by_cases hb : b.length = s.cfg.lenFieldBytes
  · rw [if_pos hb] at h
    dsimp only at h
    split at h
    · rw [rxFileSkip, twice] at h
      exact ⟨_, .inr (.inl (Host.Outcome.next.inj h).symm)⟩
    · split at h
      · cases h
      · rename_i hmax
        rw [rxFileRead] at h
        dsimp only at h
        rw [twice] at h
        split at h
        · rw [hrx] at h
          exact ⟨_, .inr (.inr (.inl (Host.Outcome.next.inj h).symm))⟩
        · refine ⟨_, .inr (.inr (.inr ⟨_, ?_, (Host.Outcome.next.inj h).symm⟩))⟩
          exact Nat.le_trans (takeAt_length_le _ _ _) (Nat.le_of_not_lt hmax)
  · rw [if_neg hb] at h
    exact ⟨_, .inl (Host.Outcome.next.inj h).symm⟩

/-- A RECV step of the SOCKET variant: nothing pending, an empty frame taken, a frame captured, or one discarded. -/
theorem execRxRecvSocket_next {s t : State} (h : exec .rxRecvSocket s = .next t) :
    t = s ∨ ∃ f q, s.sockq = f :: q ∧
      (t = { s with sockq := q } ∨ t = drawn { s with sockq := q } ∨
        (1 ≤ f.length ∧ f.length ≤ s.cfg.maxFrame ∧ t = drawn (rxCapture f { s with sockq := q }))) := by
  rw [exec_rxRecvSocket, execRxRecvSocket, sockRecv] at h
  cases hq : s.sockq with
  | nil => rw [hq] at h; exact .inl (Host.Outcome.next.inj h).symm
  | cons f q =>
    refine .inr ⟨f, q, rfl, ?_⟩
    rw [hq] at h
    dsimp only at h
    by_cases hf : f.length = 0
    · rw [if_pos hf] at h; exact .inl (Host.Outcome.next.inj h).symm
    · rw [if_neg hf] at h
      dsimp only at h
      split at h
      · cases h
      · split at h
        · exact .inr (.inr ⟨by omega, by omega, (Host.Outcome.next.inj h).symm⟩)
        · exact .inr (.inl (Host.Outcome.next.inj h).symm)

theorem execRxWriteFifo_next {s t : State} (h : exec .rxWriteFifo s = .next t) :
    t = s ∨ aligned4 (rxDmaAddr s) = true ∧ admitsWord s.cfg (rxDmaAddr s) = true ∧
      ((s.rx.done + 4 < s.rx.len ∧ t = rxStore s) ∨
        (s.rx.len ≤ s.rx.done + 4 ∧ s.rx.idx.toNat < s.bd.length ∧ t = completeRx (rxStore s))) := by
  rw [exec_rxWriteFifo, execRxWriteFifo] at h
  obtain ⟨ha, ⟨-, e⟩ | ⟨hm, h⟩⟩ := dmaStep_next h
  · exact .inl e
  · refine .inr ⟨ha, hm, ?_⟩
    by_cases hl : rxLastWord s = true
    · rw [if_pos hl] at h
      split at h
      · exact .inr ⟨of_decide_eq_true hl, ‹_›, (Host.Outcome.next.inj h).symm⟩
      · cases h
    · rw [if_neg hl] at h
      refine .inl ⟨?_, (Host.Outcome.next.inj h).symm⟩
      simp only [rxLastWord, decide_eq_true_eq] at hl
      omega

end Sys2Proof.Machine
end

