-- ==== Sys2Proof/Laws/PerInstr.lean ====
section
/-! SUPPORT. The family TableRow: every operation's encoding carries the fixed bits of its own row of
spec/opcode_table.json. The rows below are that table's `match` and `mask`. -/

namespace Sys2Proof.Laws.TableRow

/-- A row: its format, `match` and `mask`. -/
structure Row where
  format : Format
  fixed : Nat
  mask : Nat

/-- The row of an operation. -/
def row : Instr → Row
  | .rdModer => ⟨.mmio, 0x00000, 0x1FFFF⟩
  | .wrModer _ => ⟨.mmio, 0x10000, 0x1FFFF⟩
  | .rdIntSource => ⟨.mmio, 0x00004, 0x1FFFF⟩
  | .wrIntSource _ => ⟨.mmio, 0x10004, 0x1FFFF⟩
  | .rdIntMask => ⟨.mmio, 0x00008, 0x1FFFF⟩
  | .wrIntMask _ => ⟨.mmio, 0x10008, 0x1FFFF⟩
  | .rdIpgt => ⟨.mmio, 0x0000C, 0x1FFFF⟩
  | .wrIpgt _ => ⟨.mmio, 0x1000C, 0x1FFFF⟩
  | .rdIpgr1 => ⟨.mmio, 0x00010, 0x1FFFF⟩
  | .wrIpgr1 _ => ⟨.mmio, 0x10010, 0x1FFFF⟩
  | .rdIpgr2 => ⟨.mmio, 0x00014, 0x1FFFF⟩
  | .wrIpgr2 _ => ⟨.mmio, 0x10014, 0x1FFFF⟩
  | .rdPacketLen => ⟨.mmio, 0x00018, 0x1FFFF⟩
  | .wrPacketLen _ => ⟨.mmio, 0x10018, 0x1FFFF⟩
  | .rdCollConf => ⟨.mmio, 0x0001C, 0x1FFFF⟩
  | .wrCollConf _ => ⟨.mmio, 0x1001C, 0x1FFFF⟩
  | .rdTxBdNum => ⟨.mmio, 0x00020, 0x1FFFF⟩
  | .wrTxBdNum _ => ⟨.mmio, 0x10020, 0x1FFFF⟩
  | .rdCtrlModer => ⟨.mmio, 0x00024, 0x1FFFF⟩
  | .wrCtrlModer _ => ⟨.mmio, 0x10024, 0x1FFFF⟩
  | .rdMiiModer => ⟨.mmio, 0x00028, 0x1FFFF⟩
  | .wrMiiModer _ => ⟨.mmio, 0x10028, 0x1FFFF⟩
  | .rdMiiCommand => ⟨.mmio, 0x0002C, 0x1FFFF⟩
  | .wrMiiCommand _ => ⟨.mmio, 0x1002C, 0x1FFFF⟩
  | .rdMiiAddress => ⟨.mmio, 0x00030, 0x1FFFF⟩
  | .wrMiiAddress _ => ⟨.mmio, 0x10030, 0x1FFFF⟩
  | .rdMiiTxData => ⟨.mmio, 0x00034, 0x1FFFF⟩
  | .wrMiiTxData _ => ⟨.mmio, 0x10034, 0x1FFFF⟩
  | .rdMiiRxData => ⟨.mmio, 0x00038, 0x1FFFF⟩
  | .wrMiiRxData _ => ⟨.mmio, 0x10038, 0x1FFFF⟩
  | .rdMiiStatus => ⟨.mmio, 0x0003C, 0x1FFFF⟩
  | .wrMiiStatus _ => ⟨.mmio, 0x1003C, 0x1FFFF⟩
  | .rdMacAddr0 => ⟨.mmio, 0x00040, 0x1FFFF⟩
  | .wrMacAddr0 _ => ⟨.mmio, 0x10040, 0x1FFFF⟩
  | .rdMacAddr1 => ⟨.mmio, 0x00044, 0x1FFFF⟩
  | .wrMacAddr1 _ => ⟨.mmio, 0x10044, 0x1FFFF⟩
  | .rdHash0 => ⟨.mmio, 0x00048, 0x1FFFF⟩
  | .wrHash0 _ => ⟨.mmio, 0x10048, 0x1FFFF⟩
  | .rdHash1 => ⟨.mmio, 0x0004C, 0x1FFFF⟩
  | .wrHash1 _ => ⟨.mmio, 0x1004C, 0x1FFFF⟩
  | .rdBd _ => ⟨.mmio, 0x00400, 0x1FC03⟩
  | .wrBd _ _ => ⟨.mmio, 0x10400, 0x1FC03⟩
  | .rdUnmapped _ => ⟨.mmio, 0x00000, 0x10000⟩
  | .wrUnmapped _ _ => ⟨.mmio, 0x10000, 0x10000⟩
  | .txIdle => ⟨.txStep, 0x0, 0x3⟩
  | .txWaitBd => ⟨.txStep, 0x1, 0x3⟩
  | .txReadFifo => ⟨.txStep, 0x2, 0x3⟩
  | .txTransmit => ⟨.txStep, 0x3, 0x3⟩
  | .rxIdle => ⟨.rxStep, 0x0, 0x3⟩
  | .rxWaitBd => ⟨.rxStep, 0x1, 0x3⟩
  | .rxRecvFile => ⟨.rxStep, 0x2, 0x3⟩
  | .rxRecvSocket => ⟨.rxStep, 0x2, 0x3⟩
  | .rxWriteFifo => ⟨.rxStep, 0x3, 0x3⟩

/-- A well-formed operation, encoded under the default geometry, is a word of its row. -/
def Statement (i : Instr) : Prop :=
  i.wellFormed Config.standard = true →
    encodeFormat Config.standard i = (row i).format ∧ encode Config.standard i &&& (row i).mask = (row i).fixed

theorem and_mod {x m : Nat} (hm : m < 2 ^ 17) : x &&& m = x % 2 ^ 17 &&& m := by
  rw [← Nat.and_two_pow_sub_one_eq_mod, Nat.and_assoc]
  congr 1
  rw [Nat.and_comm, Nat.and_two_pow_sub_one_eq_mod, Nat.mod_eq_of_lt hm]

theorem write_mod (v off : Nat) (h : off < 2 ^ 16) : (v * 2 ^ 24 + 2 ^ 16 + off) % 2 ^ 17 = 2 ^ 16 + off := by
  omega

set_option maxRecDepth 4000 in
theorem bd_mask : ∀ i < 256, (0x400 + 4 * i) &&& 0x1FC03 = 0x400 ∧ (2 ^ 16 + (0x400 + 4 * i)) &&& 0x1FC03 = 0x10400 := by
  decide

theorem bdOffset_toNat {i : Nat} (h : i < 256) : (Config.standard.bdOffset i).toNat = 0x400 + 4 * i := by
  simp only [Config.bdOffset, Config.standard, BitVec.toNat_ofNat]
  omega

theorem write_row (off : BitVec 16) (v : Word) (m : Nat) (hm : m < 2 ^ 17) :
    (Code.write off v).toWord &&& m = (2 ^ 16 + off.toNat) &&& m := by
  rw [Code.toWord, and_mod hm, write_mod _ _ off.isLt]

theorem write_plain (off : BitVec 16) (v : Word) : (Code.write off v).toWord &&& 0x1FFFF = 2 ^ 16 + off.toNat := by
  have h := off.isLt
  change (Code.write off v).toWord &&& (2 ^ 17 - 1) = _
  rw [Nat.and_two_pow_sub_one_eq_mod, Code.toWord, write_mod _ _ h]

theorem rdModer : Statement .rdModer := fun _ => ⟨rfl, by decide⟩

theorem wrModer (v : Word) : Statement (.wrModer v) := fun _ => ⟨rfl, write_plain _ v⟩

theorem rdIntSource : Statement .rdIntSource := fun _ => ⟨rfl, by decide⟩

theorem wrIntSource (v : Word) : Statement (.wrIntSource v) := fun _ => ⟨rfl, write_plain _ v⟩

theorem rdIntMask : Statement .rdIntMask := fun _ => ⟨rfl, by decide⟩

theorem wrIntMask (v : Word) : Statement (.wrIntMask v) := fun _ => ⟨rfl, write_plain _ v⟩

theorem rdIpgt : Statement .rdIpgt := fun _ => ⟨rfl, by decide⟩

theorem wrIpgt (v : Word) : Statement (.wrIpgt v) := fun _ => ⟨rfl, write_plain _ v⟩

theorem rdIpgr1 : Statement .rdIpgr1 := fun _ => ⟨rfl, by decide⟩

theorem wrIpgr1 (v : Word) : Statement (.wrIpgr1 v) := fun _ => ⟨rfl, write_plain _ v⟩

theorem rdIpgr2 : Statement .rdIpgr2 := fun _ => ⟨rfl, by decide⟩

theorem wrIpgr2 (v : Word) : Statement (.wrIpgr2 v) := fun _ => ⟨rfl, write_plain _ v⟩

theorem rdPacketLen : Statement .rdPacketLen := fun _ => ⟨rfl, by decide⟩

theorem wrPacketLen (v : Word) : Statement (.wrPacketLen v) := fun _ => ⟨rfl, write_plain _ v⟩

theorem rdCollConf : Statement .rdCollConf := fun _ => ⟨rfl, by decide⟩

theorem wrCollConf (v : Word) : Statement (.wrCollConf v) := fun _ => ⟨rfl, write_plain _ v⟩

theorem rdTxBdNum : Statement .rdTxBdNum := fun _ => ⟨rfl, by decide⟩

theorem wrTxBdNum (v : Word) : Statement (.wrTxBdNum v) := fun _ => ⟨rfl, write_plain _ v⟩

theorem rdCtrlModer : Statement .rdCtrlModer := fun _ => ⟨rfl, by decide⟩

theorem wrCtrlModer (v : Word) : Statement (.wrCtrlModer v) := fun _ => ⟨rfl, write_plain _ v⟩

theorem rdMiiModer : Statement .rdMiiModer := fun _ => ⟨rfl, by decide⟩

theorem wrMiiModer (v : Word) : Statement (.wrMiiModer v) := fun _ => ⟨rfl, write_plain _ v⟩

theorem rdMiiCommand : Statement .rdMiiCommand := fun _ => ⟨rfl, by decide⟩

theorem wrMiiCommand (v : Word) : Statement (.wrMiiCommand v) := fun _ => ⟨rfl, write_plain _ v⟩

theorem rdMiiAddress : Statement .rdMiiAddress := fun _ => ⟨rfl, by decide⟩

theorem wrMiiAddress (v : Word) : Statement (.wrMiiAddress v) := fun _ => ⟨rfl, write_plain _ v⟩

theorem rdMiiTxData : Statement .rdMiiTxData := fun _ => ⟨rfl, by decide⟩

theorem wrMiiTxData (v : Word) : Statement (.wrMiiTxData v) := fun _ => ⟨rfl, write_plain _ v⟩

theorem rdMiiRxData : Statement .rdMiiRxData := fun _ => ⟨rfl, by decide⟩

theorem wrMiiRxData (v : Word) : Statement (.wrMiiRxData v) := fun _ => ⟨rfl, write_plain _ v⟩

theorem rdMiiStatus : Statement .rdMiiStatus := fun _ => ⟨rfl, by decide⟩

theorem wrMiiStatus (v : Word) : Statement (.wrMiiStatus v) := fun _ => ⟨rfl, write_plain _ v⟩

theorem rdMacAddr0 : Statement .rdMacAddr0 := fun _ => ⟨rfl, by decide⟩

theorem wrMacAddr0 (v : Word) : Statement (.wrMacAddr0 v) := fun _ => ⟨rfl, write_plain _ v⟩

theorem rdMacAddr1 : Statement .rdMacAddr1 := fun _ => ⟨rfl, by decide⟩

theorem wrMacAddr1 (v : Word) : Statement (.wrMacAddr1 v) := fun _ => ⟨rfl, write_plain _ v⟩

theorem rdHash0 : Statement .rdHash0 := fun _ => ⟨rfl, by decide⟩

theorem wrHash0 (v : Word) : Statement (.wrHash0 v) := fun _ => ⟨rfl, write_plain _ v⟩

theorem rdHash1 : Statement .rdHash1 := fun _ => ⟨rfl, by decide⟩

theorem wrHash1 (v : Word) : Statement (.wrHash1 v) := fun _ => ⟨rfl, write_plain _ v⟩

theorem rdBd (i : Nat) : Statement (.rdBd i) := by
  intro h
  have hi : i < 256 := of_decide_eq_true h
  refine ⟨rfl, ?_⟩
  change (Config.standard.bdOffset i).toNat &&& 0x1FC03 = 0x400
  rw [bdOffset_toNat hi]
  exact (bd_mask i hi).1

theorem wrBd (i : Nat) (v : Word) : Statement (.wrBd i v) := by
  intro h
  have hi : i < 256 := of_decide_eq_true h
  refine ⟨rfl, ?_⟩
  change (Code.write (Config.standard.bdOffset i) v).toWord &&& 0x1FC03 = 0x10400
  rw [write_row _ _ _ (by decide), bdOffset_toNat hi]
  exact (bd_mask i hi).2

theorem rdUnmapped (off : BitVec 16) : Statement (.rdUnmapped off) := by
  intro _
  refine ⟨rfl, ?_⟩
  change off.toNat &&& 2 ^ 16 = 0
  rw [Nat.and_two_pow, Nat.testBit_lt_two_pow off.isLt]
  rfl

theorem wrUnmapped (off : BitVec 16) (v : Word) : Statement (.wrUnmapped off v) := by
  intro _
  refine ⟨rfl, ?_⟩
  change (Code.write off v).toWord &&& 2 ^ 16 = 2 ^ 16
  rw [write_row _ _ _ (by decide), Nat.and_two_pow, Nat.testBit_two_pow_add_eq, Nat.testBit_lt_two_pow off.isLt]
  rfl

theorem txIdle : Statement .txIdle := fun _ => ⟨rfl, by decide⟩

theorem txWaitBd : Statement .txWaitBd := fun _ => ⟨rfl, by decide⟩

theorem txReadFifo : Statement .txReadFifo := fun _ => ⟨rfl, by decide⟩

theorem txTransmit : Statement .txTransmit := fun _ => ⟨rfl, by decide⟩

theorem rxIdle : Statement .rxIdle := fun _ => ⟨rfl, by decide⟩

theorem rxWaitBd : Statement .rxWaitBd := fun _ => ⟨rfl, by decide⟩

theorem rxRecvFile : Statement .rxRecvFile := fun _ => ⟨rfl, by decide⟩

theorem rxRecvSocket : Statement .rxRecvSocket := fun _ => ⟨rfl, by decide⟩

theorem rxWriteFifo : Statement .rxWriteFifo := fun _ => ⟨rfl, by decide⟩

end Sys2Proof.Laws.TableRow
end

