-- ==== Sys2Proof/Laws/Step.lean ====
section
/-! SUPPORT. What one step can be: an operation that the fetch found, run; or a step that is none of the
table's operations. -/

namespace Sys2Proof.Machine

/-- A step that answers a next state ran an operation, or was a step of the environment, of another bus
master or of nobody. -/
theorem step_next_cases {s t : State} (h : step s = .next t) :
    (∃ i u, fetch s = .run i u ∧ exec i u = .next t) ∨ fetch s = .other t := by
  unfold step at h
  cases hf : fetch s with
  | run i u => rw [hf] at h; exact .inl ⟨i, u, rfl, h⟩
  | other u => rw [hf] at h; simp only [Host.Outcome.next.injEq] at h; exact .inr (by rw [h])
  | refuse r => rw [hf] at h; cases h
  | halt f => rw [hf] at h; cases h

theorem step_of_run {s u : State} {i : Instr} (h : fetch s = .run i u) : step s = exec i u := by
  unfold step; rw [h]

theorem step_of_other {s u : State} (h : fetch s = .other u) : step s = .next u := by
  unfold step; rw [h]

theorem step_of_halt {s : State} {f : Fault} (h : fetch s = .halt f) : step s = .fault f := by
  unfold step; rw [h]

/-- What a running machine fetches where something is scheduled. -/
theorem fetch_of_slot {s : State} {slot : Slot} {rest : List Slot} (hs : s.stop = false) (hf : s.fault = none)
    (h : s.sched = slot :: rest) : fetch s = fetchSlot slot { s with sched := rest } := by
  simp [fetch, hs, hf, h]

/-- What a running machine fetches where nothing is scheduled. -/
theorem fetch_of_empty {s : State} (hs : s.stop = false) (hf : s.fault = none) (h : s.sched = []) :
    fetch s = fetchFree s := by
  simp [fetch, hs, hf, h]

/-- The state an operation is run in differs from the machine's only in the model's own fields: the schedule,
the tick bookkeeping and the draw counter. -/
def SameDevice (s u : State) : Prop :=
  u = { s with sched := u.sched, txDue := u.txDue, rxDue := u.rxDue, draws := u.draws }

theorem SameDevice.refl (s : State) : SameDevice s s := rfl

theorem SameDevice.trans {s u v : State} (h : SameDevice s u) (h' : SameDevice u v) : SameDevice s v := by
  cases s; cases u; cases v
  simp only [SameDevice, State.mk.injEq] at *
  simp_all

theorem sameDevice_beginTick (s : State) : SameDevice s (beginTick s) := by
  unfold beginTick; split <;> rfl

/-- A turn inside a tick begins none. -/
theorem beginTick_of_waiting {s : State} (h : s.txWaiting = true ∨ s.rxWaiting = true) : beginTick s = s := if_pos h

/-- A turn after the last step of a tick begins the next. -/
theorem beginTick_of_over {s : State} (h : ¬ (s.txWaiting = true ∨ s.rxWaiting = true)) :
    beginTick s = { s with txDue := s.txActive, rxDue := s.rxActive } := if_neg h

theorem fetchTx_of_waiting {s : State} (h : (beginTick s).txWaiting = true) :
    fetchTx s = .run (decodeTx (txCode s.tx.state)) { beginTick s with txDue := false } := by
  have e : fetchTx s = .run (decodeTx (txCode (beginTick s).tx.state)) { beginTick s with txDue := false } := if_pos h
  rw [e, sameDevice_beginTick s]

theorem fetchTx_of_none {s : State} (h : ¬ (beginTick s).txWaiting = true) : fetchTx s = .other s := if_neg h

theorem fetchRx_of_waiting {s : State} (h : (beginTick s).rxWaiting = true) :
    fetchRx s = .run (decodeRx s.cfg.backend (rxCode s.rx.state)) { beginTick s with rxDue := false } := by
  have e : fetchRx s =
      .run (decodeRx (beginTick s).cfg.backend (rxCode (beginTick s).rx.state)) { beginTick s with rxDue := false } :=
    if_pos h
  rw [e, sameDevice_beginTick s]

theorem fetchRx_of_none {s : State} (h : ¬ (beginTick s).rxWaiting = true) : fetchRx s = .other s := if_neg h

/-- Nobody's step, a step of the environment, or a store of another bus master. -/
inductive OtherStep (s : State) : State → Prop where
  | nothing {u : State} (h : SameDevice s u) : OtherStep s u
  | arrive {u : State} (h : SameDevice s u) (f : Frame) : OtherStep s (envArrive f u)
  | store {u : State} (h : SameDevice s u) (a : Word) (bs : List Byte) : OtherStep s (otherMasterStore a bs u)

theorem fetchTx_cases (s : State) :
    (∃ u, fetchTx s = .run (decodeTx (txCode s.tx.state)) u ∧ SameDevice s u) ∨ fetchTx s = .other s := by
  by_cases h : (beginTick s).txWaiting = true
  · exact .inl ⟨_, fetchTx_of_waiting h, (sameDevice_beginTick s).trans rfl⟩
  · exact .inr (fetchTx_of_none h)

theorem fetchRx_cases (s : State) :
    (∃ u, fetchRx s = .run (decodeRx s.cfg.backend (rxCode s.rx.state)) u ∧ SameDevice s u) ∨
      fetchRx s = .other s := by
  by_cases h : (beginTick s).rxWaiting = true
  · exact .inl ⟨_, fetchRx_of_waiting h, (sameDevice_beginTick s).trans rfl⟩
  · exact .inr (fetchRx_of_none h)

/-- What a fetch can find: an operation decoded from a bus access's code or from an engine's state, run in a state
that is the machine's but for the model's own fields; or a step that is none of the table's operations. -/
theorem fetch_cases {s : State} :
    (∃ c u, fetch s = .run (decodeCode s.cfg c) u ∧ SameDevice s u ∧
        (∀ st, c = .tx st → st = txCode s.tx.state) ∧ (∀ st, c = .rx st → st = rxCode s.rx.state)) ∨
      (∃ u, fetch s = .other u ∧ OtherStep s u) ∨ (∃ r, fetch s = .refuse r) ∨ (∃ f, fetch s = .halt f) := by
  have turnTx : ∀ u, SameDevice s u →
      (∃ c v, fetchTx u = .run (decodeCode s.cfg c) v ∧ SameDevice s v ∧
        (∀ st, c = .tx st → st = txCode s.tx.state) ∧ (∀ st, c = .rx st → st = rxCode s.rx.state)) ∨
      (∃ v, fetchTx u = .other v ∧ OtherStep s v) := by
    intro u hu
    have htx : u.tx = s.tx := by rw [hu]
    rcases fetchTx_cases u with ⟨v, hv, hd⟩ | hv
    · refine .inl ⟨.tx (txCode s.tx.state), v, by rw [hv, htx]; rfl, hu.trans hd, ?_, ?_⟩ <;> simp_all
    · exact .inr ⟨u, hv, .nothing hu⟩
  have turnRx : ∀ u, SameDevice s u →
      (∃ c v, fetchRx u = .run (decodeCode s.cfg c) v ∧ SameDevice s v ∧
        (∀ st, c = .tx st → st = txCode s.tx.state) ∧ (∀ st, c = .rx st → st = rxCode s.rx.state)) ∨
      (∃ v, fetchRx u = .other v ∧ OtherStep s v) := by
    intro u hu
    have hrx : u.rx = s.rx := by rw [hu]
    have hcfg : u.cfg = s.cfg := by rw [hu]
    rcases fetchRx_cases u with ⟨v, hv, hd⟩ | hv
    · refine .inl ⟨.rx (rxCode s.rx.state), v, by rw [hv, hrx, hcfg]; rfl, hu.trans hd, ?_, ?_⟩ <;> simp_all
    · exact .inr ⟨u, hv, .nothing hu⟩
  have lift : ∀ {x : Fetched},
      ((∃ c v, x = .run (decodeCode s.cfg c) v ∧ SameDevice s v ∧
        (∀ st, c = .tx st → st = txCode s.tx.state) ∧ (∀ st, c = .rx st → st = rxCode s.rx.state)) ∨
      (∃ v, x = .other v ∧ OtherStep s v)) → fetch s = x →
      (∃ c u, fetch s = .run (decodeCode s.cfg c) u ∧ SameDevice s u ∧
        (∀ st, c = .tx st → st = txCode s.tx.state) ∧ (∀ st, c = .rx st → st = rxCode s.rx.state)) ∨
      (∃ u, fetch s = .other u ∧ OtherStep s u) ∨ (∃ r, fetch s = .refuse r) ∨ (∃ f, fetch s = .halt f) := by
    intro x hx he
    rw [he]
    rcases hx with h | h
    · exact .inl h
    · exact .inr (.inl h)
  cases hs : s.stop with
  | true => exact .inr (.inr (.inr ⟨.stopped, by simp [fetch, hs]⟩))
  | false =>
    cases hf : s.fault with
    | some f => exact .inr (.inr (.inr ⟨.faulted f, by simp [fetch, hs, hf]⟩))
    | none =>
      cases hq : s.sched with
      | nil =>
        have he := fetch_of_empty hs hf hq
        unfold fetchFree at he
        dsimp only at he
        by_cases h1 : (beginTick s).txWaiting = true
        · by_cases h2 : (beginTick s).rxWaiting = true
          · by_cases h3 : Config.freeBit s.draws 0 = true
            · rw [if_pos h1, if_pos h2, if_pos h3] at he
              exact lift (turnTx (drawn s) rfl) he
            · rw [if_pos h1, if_pos h2, if_neg h3] at he
              exact lift (turnRx (drawn s) rfl) he
          · rw [if_pos h1, if_neg h2] at he
            exact lift (turnTx s rfl) he
        · rw [if_neg h1] at he
          exact lift (turnRx s rfl) he
      | cons slot rest =>
        have he := fetch_of_slot hs hf hq
        cases slot with
        | bus acc =>
          simp only [fetchSlot, fetchBus] at he
          cases hw : windowOffset s.cfg acc.addr with
          | none => rw [hw] at he; exact .inr (.inl ⟨_, he, .nothing rfl⟩)
          | some off =>
            rw [hw] at he
            cases hwd : acc.width with
            | w8 => rw [hwd] at he; exact .inr (.inr (.inl ⟨_, he⟩))
            | w16 => rw [hwd] at he; exact .inr (.inr (.inl ⟨_, he⟩))
            | w32 =>
              rw [hwd] at he
              refine .inl ⟨accessCode acc.dir off acc.data, _, he, rfl, ?_, ?_⟩ <;>
                · intro st hst
                  cases hd : acc.dir <;> simp [accessCode, hd] at hst
        | port dir off v =>
          refine .inl ⟨accessCode dir off v, _, he, rfl, ?_, ?_⟩ <;>
            · intro st hst
              cases dir <;> simp [accessCode] at hst
        | tick =>
          exact .inr (.inl ⟨_, he, .nothing (SameDevice.trans (u := { s with sched := rest }) rfl (sameDevice_beginTick _))⟩)
        | txTurn => exact lift (turnTx { s with sched := rest } rfl) he
        | rxTurn => exact lift (turnRx { s with sched := rest } rfl) he
        | arrive f => exact .inr (.inl ⟨_, he, .arrive (u := { s with sched := rest }) rfl f⟩)
        | store a bs => exact .inr (.inl ⟨_, he, .store (u := { s with sched := rest }) rfl a bs⟩)

end Sys2Proof.Machine
end

