-- ==== Sys2Proof/Tests/Slice0.lean ====
section
/-! SUPPORT. The model's own tests: the well-formedness checks, every operation decoded from a code written
out from 30_encoding.md, single steps against the vectors of 95_test_vectors.md, and for every statement
that has hypotheses a state that meets them. -/

namespace Sys2Proof.Tests

open Sys2Proof.Machine Sys2Proof.Claims

/-! ### Small states -/

/-- The common start of 95_test_vectors.md. -/
def vec : Config := { bdRamReset := .zero }

/-- As `vec`, SOCKET variant. -/
def vecSock : Config := { vec with backend := .socket }

/-- A device just constructed (R441). -/
def s0 : State := State.construct vec

/-- The same in the SOCKET variant. -/
def k0 : State := State.construct vecSock

/-- What a step leaves of one field. -/
def after {α : Type} (r : Result) (f : State → α) : Option α :=
  match r with
  | .next t => some (f t)
  | .fault _ => none
  | .refused _ => none

/-- The fault a step raises. -/
def faultOf (r : Result) : Option Fault :=
  match r with
  | .fault f => some f
  | .next _ => none
  | .refused _ => none

/-- `m[0x10000 + j] = j` for `j = 0 .. 8`; the byte 0 reads as unlisted. -/
def mem8 : List Host.Cell :=
  [(0x10001, 1), (0x10002, 2), (0x10003, 3), (0x10004, 4), (0x10005, 5), (0x10006, 6), (0x10007, 7), (0x10008, 8)]

/-- A state with the two words of the descriptor at index 0, and the TX engine in a state. -/
def txAt (st : TxState) (w0 w1 : Word) : State :=
  { s0 with
    bd := w0 :: w1 :: s0.bd.drop 2
    tx := { s0.tx with state := st, bd := w0, buf := w1 }
    mem := mem8 }

/-- A TX frame of `n` bytes, `sent` bytes of it staged. -/
def txStaged (st : TxState) (w0 : Word) (n : BitVec 16) (sent : Nat) (fifo : List Byte) : State :=
  { txAt st w0 0x10000 with
    tx := { s0.tx with
      state := st, bd := w0, buf := 0x10000, len := n, sent := sent, left := n.toNat - sent, fifo := fifo } }

/-- A state with word 0 of the descriptor at 0x80 and word 1 = 0x20000, and the RX engine in a state. -/
def rxAt (cfg : Config) (st : RxState) (w0 : Word) : State :=
  { State.construct cfg with
    bd := (s0.bd.set 0x80 w0).set 0x81 0x20000
    rx := { s0.rx with state := st, bd := w0, buf := 0x20000, src := .rxFile } }

/-- An RX frame staged whole, `done` bytes of it written. -/
def rxStaged (w0 : Word) (fifo : List Byte) (done : Nat) : State :=
  { rxAt vec .writeFifo w0 with
    rx := { s0.rx with
      state := .writeFifo, bd := w0, buf := 0x20000, src := .rxFile, fifo := fifo, len := fifo.length, done := done } }

/-- A frame of 16 bytes for the station address. -/
def frame16 : Frame :=
  [0x00, 0x11, 0x22, 0x33, 0x44, 0x55, 0xAA, 0xBB, 0xCC, 0xDD, 0xEE, 0xFF, 0x08, 0x00, 0x01, 0x02]

/-- The same for 00:11:22:33:44:56. -/
def frameOther : Frame :=
  [0x00, 0x11, 0x22, 0x33, 0x44, 0x56, 0x00, 0x00, 0x00, 0x00, 0x00, 0x00, 0x00, 0x00, 0x00, 0x00]

/-- A record of 14 bytes, `0E 00 00 00` before it. -/
def record14 : List Byte :=
  [0x0E, 0, 0, 0, 0x80, 0x81, 0x82, 0x83, 0x84, 0x85, 0x86, 0x87, 0x88, 0x89, 0x8A, 0x8B, 0x8C, 0x8D]

/-! ### Well-formedness: an ill-formed term for each check -/

theorem test_wf_rejects_descriptor_index :
    (Instr.rdBd 256).wellFormed vec = false ∧ (Instr.wrBd 256 0).wellFormed vec = false ∧
      (Instr.rdBd 255).wellFormed vec = true := by decide

theorem test_wf_rejects_decoded_offset_as_unmapped :
    (Instr.rdUnmapped 0x4C).wellFormed vec = false ∧ (Instr.wrUnmapped 0x7FC 0).wellFormed vec = false ∧
      (Instr.rdUnmapped 0x50).wellFormed vec = true ∧ (Instr.wrUnmapped 0x402 0).wellFormed vec = true := by decide

theorem test_wf_rejects_other_backend :
    Instr.rxRecvSocket.wellFormed vec = false ∧ Instr.rxRecvFile.wellFormed vecSock = false ∧
      Instr.rxRecvFile.wellFormed vec = true := by decide

theorem test_wf_rejects_geometry :
    Config.wf { vec with bdBase := 0x402 } = false ∧ Config.wf { vec with bdBase := 0x4C } = false ∧
      Config.wf { vec with ringWords := 257 } = false ∧ Config.wf { vec with regionSize := 0x10004 } = false ∧
      Config.wf vec = true := by decide

/-! ### Decoding: every operation from its code of R141, R142 and R151 -/

theorem test_decode_register_reads :
    decode vec .mmio 0x00000 = .ok .rdModer ∧ decode vec .mmio 0x00004 = .ok .rdIntSource ∧
    decode vec .mmio 0x00008 = .ok .rdIntMask ∧ decode vec .mmio 0x0000C = .ok .rdIpgt ∧
    decode vec .mmio 0x00010 = .ok .rdIpgr1 ∧ decode vec .mmio 0x00014 = .ok .rdIpgr2 ∧
    decode vec .mmio 0x00018 = .ok .rdPacketLen ∧ decode vec .mmio 0x0001C = .ok .rdCollConf ∧
    decode vec .mmio 0x00020 = .ok .rdTxBdNum ∧ decode vec .mmio 0x00024 = .ok .rdCtrlModer ∧
    decode vec .mmio 0x00028 = .ok .rdMiiModer ∧ decode vec .mmio 0x0002C = .ok .rdMiiCommand ∧
    decode vec .mmio 0x00030 = .ok .rdMiiAddress ∧ decode vec .mmio 0x00034 = .ok .rdMiiTxData ∧
    decode vec .mmio 0x00038 = .ok .rdMiiRxData ∧ decode vec .mmio 0x0003C = .ok .rdMiiStatus ∧
    decode vec .mmio 0x00040 = .ok .rdMacAddr0 ∧ decode vec .mmio 0x00044 = .ok .rdMacAddr1 ∧
    decode vec .mmio 0x00048 = .ok .rdHash0 ∧ decode vec .mmio 0x0004C = .ok .rdHash1 := by decide

theorem test_decode_register_writes :
    decode vec .mmio 0xA5A5A5A5010000 = .ok (.wrModer 0xA5A5A5A5) ∧
    decode vec .mmio 0xA5A5A5A5010004 = .ok (.wrIntSource 0xA5A5A5A5) ∧
    decode vec .mmio 0xA5A5A5A5010008 = .ok (.wrIntMask 0xA5A5A5A5) ∧
    decode vec .mmio 0xA5A5A5A501000C = .ok (.wrIpgt 0xA5A5A5A5) ∧
    decode vec .mmio 0xA5A5A5A5010010 = .ok (.wrIpgr1 0xA5A5A5A5) ∧
    decode vec .mmio 0xA5A5A5A5010014 = .ok (.wrIpgr2 0xA5A5A5A5) ∧
    decode vec .mmio 0xA5A5A5A5010018 = .ok (.wrPacketLen 0xA5A5A5A5) ∧
    decode vec .mmio 0xA5A5A5A501001C = .ok (.wrCollConf 0xA5A5A5A5) ∧
    decode vec .mmio 0xA5A5A5A5010020 = .ok (.wrTxBdNum 0xA5A5A5A5) ∧
    decode vec .mmio 0xA5A5A5A5010024 = .ok (.wrCtrlModer 0xA5A5A5A5) ∧
    decode vec .mmio 0xA5A5A5A5010028 = .ok (.wrMiiModer 0xA5A5A5A5) ∧
    decode vec .mmio 0xA5A5A5A501002C = .ok (.wrMiiCommand 0xA5A5A5A5) ∧
    decode vec .mmio 0xA5A5A5A5010030 = .ok (.wrMiiAddress 0xA5A5A5A5) ∧
    decode vec .mmio 0xA5A5A5A5010034 = .ok (.wrMiiTxData 0xA5A5A5A5) ∧
    decode vec .mmio 0xA5A5A5A5010038 = .ok (.wrMiiRxData 0xA5A5A5A5) ∧
    decode vec .mmio 0xA5A5A5A501003C = .ok (.wrMiiStatus 0xA5A5A5A5) ∧
    decode vec .mmio 0xA5A5A5A5010040 = .ok (.wrMacAddr0 0xA5A5A5A5) ∧
    decode vec .mmio 0xA5A5A5A5010044 = .ok (.wrMacAddr1 0xA5A5A5A5) ∧
    decode vec .mmio 0xA5A5A5A5010048 = .ok (.wrHash0 0xA5A5A5A5) ∧
    decode vec .mmio 0xA5A5A5A501004C = .ok (.wrHash1 0xA5A5A5A5) := by decide

theorem test_decode_descriptor_and_unmapped :
    decode vec .mmio 0x00400 = .ok (.rdBd 0) ∧ decode vec .mmio 0x007FC = .ok (.rdBd 255) ∧
    decode vec .mmio 0xDEADBEEF010414 = .ok (.wrBd 5 0xDEADBEEF) ∧
    decode vec .mmio 0x00402 = .ok (.rdUnmapped 0x402) ∧ decode vec .mmio 0x003FC = .ok (.rdUnmapped 0x3FC) ∧
    decode vec .mmio 0x00800 = .ok (.rdUnmapped 0x800) ∧ decode vec .mmio 0x00001 = .ok (.rdUnmapped 1) ∧
    decode vec .mmio 0x00000001010050 = .ok (.wrUnmapped 0x50 1) := by decide

theorem test_decode_steps :
    decode vec .txStep 0b00 = .ok .txIdle ∧ decode vec .txStep 0b01 = .ok .txWaitBd ∧
    decode vec .txStep 0b10 = .ok .txReadFifo ∧ decode vec .txStep 0b11 = .ok .txTransmit ∧
    decode vec .rxStep 0b00 = .ok .rxIdle ∧ decode vec .rxStep 0b01 = .ok .rxWaitBd ∧
    decode vec .rxStep 0b10 = .ok .rxRecvFile ∧ decode vecSock .rxStep 0b10 = .ok .rxRecvSocket ∧
    decode vec .rxStep 0b11 = .ok .rxWriteFifo := by decide

theorem test_decode_rejects_by_name :
    decode vec .mmio 0x20000 = .error .bitsAboveAccessCode ∧
    decode vec .mmio 0x00000001010000 = .ok (.wrModer 1) ∧ decode vec .mmio 0x30000 = .error .bitsAboveAccessCode ∧
    decode vec .txStep 4 = .error .bitsAboveStateCode ∧ decode vec .rxStep 4 = .error .bitsAboveStateCode := by decide

theorem test_table_words :
    decodeTableWord 24 0x00018 = some .rdPacketLen ∧ decodeTableWord 24 0x1004C = some (.wrHash1 0) ∧
    decodeTableWord 24 0x10400 = some (.wrBd 0 0) ∧ decodeTableWord 8 3 = some .txTransmit := by decide

/-- What `withFetchWord` stores is what the next step runs. -/
theorem test_step_runs_fetch_word :
    after (step (s0.withFetchWord 24 0x00018)) State.busOut = some [0x003C0600] ∧
    after (step (s0.withFetchWord 8 0)) (·.tx.state) = some .waitBd := by decide

/-! ### Register interface -/

/-- R32's reset values and R50, R51; vectors R1, R12. -/
theorem test_register_reads :
    after (exec .rdModer s0) State.busOut = some [0x0000A000] ∧
    after (exec .rdIntSource s0) State.busOut = some [0] ∧
    after (exec .rdIntMask s0) State.busOut = some [0] ∧
    after (exec .rdIpgt s0) State.busOut = some [0x12] ∧
    after (exec .rdIpgr1 s0) State.busOut = some [0x0C] ∧
    after (exec .rdIpgr2 s0) State.busOut = some [0x12] ∧
    after (exec .rdPacketLen s0) State.busOut = some [0x003C0600] ∧
    after (exec .rdCollConf s0) State.busOut = some [0x000F003F] ∧
    after (exec .rdTxBdNum s0) State.busOut = some [0x40] ∧
    after (exec .rdCtrlModer s0) State.busOut = some [0] ∧
    after (exec .rdMiiModer s0) State.busOut = some [0x64] ∧
    after (exec .rdMiiCommand s0) State.busOut = some [0] ∧
    after (exec .rdMiiAddress s0) State.busOut = some [0] ∧
    after (exec .rdMiiTxData s0) State.busOut = some [0] ∧
    after (exec .rdMiiRxData s0) State.busOut = some [0] ∧
    after (exec .rdMiiStatus s0) State.busOut = some [0] ∧
    after (exec .rdMacAddr0 s0) State.busOut = some [0x22334455] ∧
    after (exec .rdMacAddr1 s0) State.busOut = some [0x00000011] ∧
    after (exec .rdHash0 s0) State.busOut = some [0] ∧
    after (exec .rdHash1 s0) State.busOut = some [0] := by decide

/-- R33: all 32 bits; vectors R2, R13 and W1. -/
theorem test_plain_register_writes :
    after (exec (.wrIntMask 0xFFFFFFFF) s0) (·.regs.intMask) = some 0xFFFFFFFF ∧
    after (exec (.wrIpgt 0xFFFFFFFF) s0) (·.regs.ipgt) = some 0xFFFFFFFF ∧
    after (exec (.wrIpgr1 0xFFFFFFFF) s0) (·.regs.ipgr1) = some 0xFFFFFFFF ∧
    after (exec (.wrIpgr2 0xFFFFFFFF) s0) (·.regs.ipgr2) = some 0xFFFFFFFF ∧
    after (exec (.wrPacketLen 0xFFFFFFFF) s0) (·.regs.packetLen) = some 0xFFFFFFFF ∧
    after (exec (.wrCollConf 0xA5A5A5A5) s0) (·.regs.collConf) = some 0xA5A5A5A5 ∧
    after (exec (.wrCtrlModer 0xFFFFFFFF) s0) (·.regs.ctrlModer) = some 0xFFFFFFFF ∧
    after (exec (.wrMiiModer 0xFFFFFFFF) s0) (·.regs.miiModer) = some 0xFFFFFFFF ∧
    after (exec (.wrMiiCommand 0xFFFFFFFF) s0) (·.regs.miiCommand) = some 0xFFFFFFFF ∧
    after (exec (.wrMiiAddress 0xFFFFFFFF) s0) (·.regs.miiAddress) = some 0xFFFFFFFF ∧
    after (exec (.wrMiiTxData 0xFFFFFFFF) s0) (·.regs.miiTxData) = some 0xFFFFFFFF ∧
    after (exec (.wrMiiRxData 0xFFFFFFFF) s0) (·.regs.miiRxData) = some 0xFFFFFFFF ∧
    after (exec (.wrMiiStatus 0xFFFFFFFF) s0) (·.regs.miiStatus) = some 0xFFFFFFFF ∧
    after (exec (.wrMacAddr0 0x22334456) s0) (·.regs.macAddr0) = some 0x22334456 ∧
    after (exec (.wrMacAddr1 0xFFFFFFFF) s0) (·.regs.macAddr1) = some 0xFFFFFFFF ∧
    after (exec (.wrHash0 0xFFFFFFFF) s0) (·.regs.hash0) = some 0xFFFFFFFF ∧
    after (exec (.wrHash1 0xFFFFFFFF) s0) (·.regs.hash1) = some 0xFFFFFFFF := by decide

/-- Vector R6: a second write of TXEN = 1 makes no edge. -/
theorem test_moder_edge_only_from_zero :
    after (exec (.wrModer 0xA002) { txAt .readFifo 0 0 with regs := { s0.regs with moder := 0xA002 } }) (·.tx.state) =
      some .readFifo ∧
    after (exec (.wrModer 0xA002) (txAt .readFifo 0 0)) (·.tx.state) = some .idle := by decide

/-- Vectors R7, I3, N3, N5. -/
theorem test_moder_softreset :
    after (exec (.wrModer 0x802)
        { txAt .readFifo 5 6 with regs := { s0.regs with moder := 0xA002, intSource := 7 }, irq := true })
      (fun t => (t.regs.moder, t.regs.intSource, t.irq)) = some (0xA000, 0, false) ∧
    after (exec (.wrModer 0x802) (txAt .readFifo 5 6)) (fun t => (t.tx.state, t.tx.idx, t.rx.idx)) =
      some (.idle, 0, 0x80) ∧
    after (exec (.wrModer 0x802) (txAt .readFifo 5 6)) (·.bd[0]?) = some (some 0) ∧
    after (exec (.wrModer 0x800) { s0 with txs := [1, 2], rxOff := 64, lbOff := 20 })
      (fun t => (t.txs, t.rxOff, t.lbOff)) = some ([], 0, 0) ∧
    faultOf (exec (.wrModer 0x800) (State.construct { vecSock with socketSetupFatal := true })) =
      some (.raised (.backendSetupFailed .bus)) := by decide

/-- Vector R8. -/
theorem test_int_source_write_one_to_clear :
    after (exec (.wrIntSource 0x4) { s0 with regs := { s0.regs with intSource := 0x15 }, irq := true })
      (fun t => (t.regs.intSource, t.irq)) = some (0x11, true) ∧
    after (exec (.wrIntSource 0x11) { s0 with regs := { s0.regs with intSource := 0x11 }, irq := true })
      (fun t => (t.regs.intSource, t.irq)) = some (0, false) := by decide

/-- Vector R9. -/
theorem test_int_source_write_sets_nothing :
    after (exec (.wrIntSource 0xFFFFFFFF) s0) (·.regs.intSource) = some 0 := by decide

/-- Vector R10. -/
theorem test_tx_bd_num_moves_rx_pointer :
    after (exec (.wrTxBdNum 0x10) s0) (·.rx.idx) = some 0x20 ∧
    after (exec (.wrTxBdNum 0x80000001) s0) (·.rx.idx) = some 0x2 ∧
    after (exec (.wrTxBdNum 0x80) s0) (fun t => faultOf (exec .rxWaitBd t)) =
      some (some (.raised (.bdIndexOutOfRange .rx 0x100))) := by decide

/-- Vector R11. -/
theorem test_unmasking_asserts_nothing :
    after (exec (.wrIntMask 1) { s0 with regs := { s0.regs with intSource := 1 } }) State.irq = some false := by decide

/-- Vectors R3, R4. -/
theorem test_unmapped_accesses :
    after (exec (.rdUnmapped 0x402) s0) (fun t => (t.busOut, t.history)) = some ([0], [.illegalAccess .read 0x402]) ∧
    after (exec (.wrUnmapped 0x50 1) s0) (fun t => (t.busOut, t.history)) =
      some ([], [.illegalAccess .write 0x50]) := by decide

set_option maxRecDepth 2000 in
/-- Vector R5. -/
theorem test_descriptor_words :
    after (exec (.wrBd 5 0xDEADBEEF) s0) (·.bd[5]?) = some (some 0xDEADBEEF) ∧
    after (exec (.rdBd 5) { s0 with bd := s0.bd.set 5 0xDEADBEEF }) State.busOut = some [0xDEADBEEF] := by decide

/-! ### Transmit engine -/

theorem test_tx_idle : after (exec .txIdle s0) (·.tx.state) = some .waitBd := by decide

/-- Vector T1. -/
theorem test_tx_wait_bd_polls :
    after (exec .txWaitBd (txAt .waitBd 0x00400000 0)) (fun t => (t.tx.state, t.history)) = some (.waitBd, []) := by
  decide

/-- Vector T2. -/
theorem test_tx_wait_bd_takes :
    after (exec .txWaitBd (txAt .waitBd 0x0040E1FF 0x00010000))
      (fun t => (t.tx.bd, t.tx.len, t.tx.buf, t.tx.state)) = some (0x0040E000, 64, 0x10000, .readFifo) ∧
    after (exec .txWaitBd (txAt .waitBd 0x0040E1FF 0x00010000)) (fun t => (t.txs, t.bd[0]?)) =
      some ([0x40, 0, 0, 0], some 0x0040E1FF) := by decide

/-- Vector T7, its second word. -/
theorem test_tx_read_fifo_stages :
    after (exec .txReadFifo (txStaged .readFifo 0x0005A000 5 4 [0, 1, 2, 3]))
      (fun t => (t.tx.fifo, t.tx.sent, t.tx.left, t.tx.state)) =
      some ([0, 1, 2, 3, 4, 5, 6, 7], 8, 0, .transmit) := by decide

/-- Vectors T5 (no access for an empty frame) and T6. -/
theorem test_tx_read_fifo_alignment :
    after (exec .txReadFifo { txStaged .readFifo 0xA000 0 0 [] with
        tx := { (txStaged .readFifo 0xA000 0 0 []).tx with buf := 0x10001 } }) (·.tx.state) = some .transmit ∧
    faultOf (exec .txReadFifo { txStaged .readFifo 0x4A000 4 0 [] with
        tx := { (txStaged .readFifo 0x4A000 4 0 []).tx with buf := 0x10002 } }) =
      some (.raised (.misalignedBuffer .tx 0x10002)) := by decide

set_option maxRecDepth 2000 in
/-- Vectors T4, T7, and I2: an assertion of a line asserted already is recorded too. -/
theorem test_tx_transmit_sends :
    after (exec .txTransmit { txStaged .transmit 0x0005E000 5 8 [0, 1, 2, 3, 4, 5, 6, 7] with
        regs := { s0.regs with intMask := 1 } })
      (fun t => (t.txs, t.bd[0]?, t.regs.intSource, t.irq, t.tx.idx)) =
      some ([0, 1, 2, 3, 4], some 0x00056000, 1, true, 0) ∧
    after (exec .txTransmit { txStaged .transmit 0x00006000 0 0 [] with
        regs := { s0.regs with intMask := 5 }, irq := true, history := [.irqAssert] }) State.history =
      some [.irqAssert, .frameSent [], .irqAssert] := by decide

set_option maxRecDepth 2000 in
/-- Vectors T8 and T9: a short write clears RD and LC and sets TXE. -/
theorem test_tx_transmit_short_write :
    after (exec .txTransmit { txStaged .transmit 0x0004E004 4 4 [0, 1, 2, 3] with
        cfg := { vec with txSinkAvailable := false }, regs := { s0.regs with intMask := 2 } })
      (fun t => (t.txs, t.bd[0]?, t.regs.intSource, t.irq)) = some ([], some 0x00046000, 2, true) ∧
    after (exec .txTransmit { txStaged .transmit 0x0004E004 4 4 [0, 1, 2, 3] with
        cfg := { vec with txSinkAvailable := false }, regs := { s0.regs with intMask := 1 } }) State.irq =
      some false := by decide

/-- Vector T11 and W2. -/
theorem test_next_tx :
    nextTx vec 0 false = 2 ∧ nextTx vec 252 false = 254 ∧ nextTx vec 254 false = 0 ∧ nextTx vec 10 true = 0 ∧
      nextTx vec 254 true = 0 := by decide

/-! ### Receive engine -/

theorem test_rx_idle : after (exec .rxIdle s0) (·.rx.state) = some .waitBd := by decide

/-- Vector X1. -/
theorem test_rx_wait_bd_takes :
    after (exec .rxWaitBd (rxAt vec .waitBd 0x0000E1FF))
      (fun t => (t.rx.bd, t.rx.src, t.rx.state, t.bd[0x80]?)) =
      some (0x0000E100, .rxFile, .recv, some 0x0000E1FF) := by decide

/-- Vector X3. -/
theorem test_rx_wait_bd_busy :
    after (exec .rxWaitBd { rxAt vecSock .waitBd 0 with
        regs := { s0.regs with moder := 0xA001, intMask := 0x10 }, sockq := [frame16] })
      (fun t => (t.sockq, t.regs.intSource, t.irq, t.rx.state)) = some ([], 0x10, true, .waitBd) := by decide

/-- Vector X5, its first step, and X6. -/
theorem test_rx_recv_file_runt_and_giant :
    after (exec .rxRecvFile (rxAt { vec with rxs := [0x0A, 0, 0, 0, 1, 2, 3, 4, 5, 6, 7, 8, 9, 10] } .recv 0xE000))
      (fun t => (t.rxOff, t.rx.state)) = some (14, .waitBd) ∧
    faultOf (exec .rxRecvFile (rxAt { vec with rxs := [0x70, 0x11, 1, 0] } .recv 0xE000)) =
      some (.raised (.frameTooLarge .rx 70000)) := by decide

/-- Vectors X4, X7 (a payload cut short) and X8 (a whole record). -/
theorem test_rx_recv_file_ends :
    after (exec .rxRecvFile (rxAt vec .recv 0xE000)) (fun t => (t.stop, t.rx.state)) = some (true, .recv) ∧
    after (exec .rxRecvFile (rxAt { vec with rxs := [0x3C, 0, 0, 0, 1, 2] } .recv 0xE000))
      (fun t => (t.rx.error, t.rx.state, t.rxOff)) = some (true, .recv, 6) ∧
    after (exec .rxRecvFile (rxAt { vec with rxs := record14 } .recv 0xE000))
      (fun t => (t.rx.len, t.rx.fifo, t.rx.state, t.rxOff)) = some (14, record14.drop 4, .writeFifo, 18) := by decide

/-- Vector X10: the station address, another, broadcast. -/
theorem test_rx_recv_socket_filters :
    after (exec .rxRecvSocket { rxAt vecSock .recv 0 with sockq := [frame16] }) (fun t => (t.rx.state, t.rx.len)) =
      some (.writeFifo, 16) ∧
    after (exec .rxRecvSocket { rxAt vecSock .recv 0 with sockq := [frameOther] }) (fun t => (t.rx.state, t.sockq)) =
      some (.recv, []) ∧
    after (exec .rxRecvSocket { rxAt vecSock .recv 0 with sockq := [[255, 255, 255, 255, 255, 255, 0]] })
      (·.rx.state) = some .recv := by decide

/-- Vector X10: promiscuous mode, and an empty frame. -/
theorem test_rx_recv_socket_promiscuous :
    after (exec .rxRecvSocket { rxAt vecSock .recv 0 with
        sockq := [frameOther], regs := { s0.regs with moder := 0xA021 } }) (·.rx.state) = some .writeFifo ∧
    after (exec .rxRecvSocket { rxAt vecSock .recv 0 with sockq := [[]] }) (fun t => (t.rx.state, t.sockq)) =
      some (.recv, []) := by decide

/-- Vector X8: big-endian words at rising addresses. -/
theorem test_rx_write_fifo_stores :
    after (exec .rxWriteFifo (rxStaged 0xE000 (record14.drop 4) 4))
      (fun t => (Memory.readWord t.mem 0x20004, t.rx.done, t.rx.state)) = some (0x84858687, 8, .writeFifo) := by decide

set_option maxRecDepth 2000 in
/-- Vectors X12 and P3: the last word; LEN 16, SF, RXB, and the line only where RXB is masked in (I1). -/
theorem test_rx_write_fifo_completes :
    after (exec .rxWriteFifo { rxStaged 0xE000 frame16 12 with regs := { s0.regs with intMask := 4, intSource := 1 } })
      (fun t => (t.bd[0x80]?, t.regs.intSource, t.irq, t.rx.idx, t.rx.state)) =
      some (some 0x00106004, 5, true, 0x80, .idle) ∧
    after (exec .rxWriteFifo (rxStaged 0xE000 frame16 12)) State.irq = some false := by decide

/-- Vector X9: the length flags. -/
theorem test_rx_write_back_flags :
    rxWriteBack { s0 with rx := { s0.rx with bd := 0xE000, len := 59 } } = 0x003B6004 ∧
    rxWriteBack { s0 with rx := { s0.rx with bd := 0xE000, len := 60 } } = 0x003C6000 ∧
    rxWriteBack { s0 with rx := { s0.rx with bd := 0xE000, len := 1536 } } = 0x06006000 ∧
    rxWriteBack { s0 with rx := { s0.rx with bd := 0xE000, len := 1537 } } = 0x06016008 := by decide

/-- Vector X11 and W3. -/
theorem test_next_rx :
    nextRx vec 0x40 0x80 true = 0x80 ∧ nextRx vec 0x40 0x80 false = 0x82 ∧ nextRx vec 0x40 254 false = 0x80 ∧
      nextRx vec 0x10 0x90 true = 0x20 := by decide

/-! ### Transport, interrupts, the machine -/

/-- Vector N1. -/
theorem test_enc :
    encLen vec 60 = [0x3C, 0, 0, 0] ∧ encLen vec 1536 = [0, 6, 0, 0] ∧
    encLen { vec with hostEndian := .big } 60 = [0, 0, 0, 0x3C] ∧
    encLen { vec with hostEndian := .big } 1536 = [0, 0, 6, 0] := by decide

/-- R7: WRAP_LIMIT follows RING_WORDS where it is not given. -/
theorem test_wrap_limit_default :
    Config.standard.wrapLimit = 254 ∧ ({ ringWords := 64 } : Config).wrapLimit = 62 ∧
    nextTx { ringWords := 64 } 62 false = 0 := by decide

/-- Vector N4. -/
theorem test_skip_past_the_end :
    (rxFileSkip .rxFile 100 { s0 with rxOff := 10 }).rxOff = 110 ∧
    (rxFileReadLen .rxFile { s0 with cfg := { vec with rxs := record14 }, rxOff := 110 }).1 = none := by decide

/-- R181: another width is refused. R180: an address outside the window never reaches the block. -/
theorem test_bus_access_width_and_window :
    step { s0 with sched := [.bus ⟨.w16, .read, 0, 0⟩] } = .refused .accessWidth ∧
    after (step { s0 with sched := [.bus ⟨.w32, .read, 0x800, 0⟩] }) State.busOut = some [] := by
  refine ⟨rfl, by decide⟩

/-- R64, R412: nothing steps after a stop request. -/
theorem test_stopped_machine : faultOf (step { s0 with stop := true }) = some .stopped := by decide

/-- R463: TX before RX in one tick, then the next tick. -/
theorem test_one_step_a_tick :
    after (step { s0 with regs := { s0.regs with moder := 0xA003 }, sched := [.txTurn, .txTurn] })
      (fun t => (t.tx.state, t.txDue, t.rxDue, after (step t) (·.tx.state))) =
      some (.waitBd, false, true, some .waitBd) := by decide

/-- R463: with TX alone active and the tick over, RXEN may be set inside the next tick, before TX steps in it; RX then
takes no step in that tick, and the turns TX, TX, RX give TX its step of it and each engine its step of the next. -/
theorem test_enable_inside_a_tick :
    let s := { s0 with
      regs := { s0.regs with moder := 0xA002 }
      sched := [.tick, .port .write 0 0xA003, .txTurn, .txTurn, .rxTurn] }
    let turn := fun (r : Result) => match r with
      | .next t => step t
      | .fault f => .fault f
      | .refused q => .refused q
    after (turn (turn (step s))) (fun t => (t.tx.state, t.rx.state)) = some (.waitBd, .idle) ∧
    after (turn (turn (turn (turn (step s))))) (fun t => (t.tx.state, t.rx.state)) = some (.waitBd, .waitBd) := by decide

/-- R111, R14: an engine at a word the memory does not admit takes no step and raises nothing; the other goes on. -/
theorem test_refused_dma_leaves_one_engine_stuck :
    let s := { s0 with
      cfg := { vec with memHoles := [(0x30000, 4)] }
      regs := { s0.regs with moder := 0xA003 }
      rx := { s0.rx with state := .writeFifo, buf := 0x30000, len := 4, fifo := [1, 2, 3, 4] }
      sched := [.rxTurn, .txTurn] }
    after (step s) (fun t => (t.rx.state, t.mem, t.history, after (step t) (·.tx.state))) =
      some (.writeFifo, [], [], some .waitBd) := by decide

/-! ### Witnesses: for every statement with hypotheses, states and operands that meet them -/

/-- A device just constructed, with room for two descriptors. -/
def small (cfg : Config) : State := State.construct { cfg with ringWords := 4, wrapLimit := 2 }

/-- The TX engine in a state, at the descriptor `w0, w1` of index 0. -/
def txW (st : TxState) (w0 w1 : Word) : State :=
  { small vec with bd := [w0, w1, 0, 0], tx := { (small vec).tx with state := st, bd := w0, buf := w1 } }

/-- A TX frame of `n` bytes, `sent` bytes of it staged. -/
def txWStaged (st : TxState) (w0 : Word) (n : BitVec 16) (sent : Nat) (fifo : List Byte) : State :=
  { txW st w0 0x10000 with
    tx := { (txW st w0 0x10000).tx with len := n, sent := sent, left := n.toNat - sent, fifo := fifo } }

/-- The RX engine in a state, at the descriptor `w0, 0x20000` of index 2. -/
def rxW (cfg : Config) (st : RxState) (w0 : Word) : State :=
  { small cfg with
    bd := [0, 0, w0, 0x20000]
    rx := { (small cfg).rx with state := st, idx := 2, bd := w0, buf := 0x20000, src := .rxFile } }

/-- An RX frame staged whole, `done` bytes of it written. -/
def rxWStaged (w0 : Word) (fifo : List Byte) (done : Nat) : State :=
  { rxW vec .writeFifo w0 with
    rx := { (rxW vec .writeFifo w0).rx with fifo := fifo, len := fifo.length, done := done } }

theorem witness_DecodeOfEncodeIsTheOperation :
    Config.wf vec = true ∧ (Instr.rdBd 0).wellFormed vec = true ∧ (Instr.wrBd 255 0xFFFFFFFF).wellFormed vec = true ∧
    (Instr.rdUnmapped 0x50).wellFormed vec = true ∧ (Instr.wrUnmapped 0xFFFF 1).wellFormed vec = true ∧
    Instr.rxRecvFile.wellFormed vec = true ∧ Instr.txTransmit.wellFormed vec = true ∧
    Config.wf vecSock = true ∧ Instr.rxRecvSocket.wellFormed vecSock = true := by decide

theorem witness_EveryCodeHasOneOperation : Config.wf vec = true ∧ Config.wf vecSock = true := by decide

/-- The twenty offsets lie below 0x50 (R32). -/
theorem offsetOf_lt (r : Reg) : (offsetOf r).toNat < 0x50 := by cases r <;> decide

/-- The first and the last offset of each range of R143. -/
theorem witness_OffsetsDecodeInOrderOfPriority :
    (BitVec.toNat 0x402#16 % 4 ≠ 0 ∧ BitVec.toNat 0xFFFF#16 % 4 ≠ 0) ∧
    (0x00#16 = offsetOf .moder ∧ 0x4C#16 = offsetOf .hash1) ∧
    (∀ n ∈ [0x50, 0x3FC, 0x400, 0x7FC, 0x800, 0xFFFC],
      (BitVec.ofNat 16 n).toNat = n ∧ n % 4 = 0 ∧ ∀ r, BitVec.ofNat 16 n ≠ offsetOf r) ∧
    (∀ n ∈ [0x400, 0x7FC], vec.bdBase ≤ n ∧ n + 4 ≤ vec.bdBase + 4 * vec.ringWords) ∧
    (∀ n ∈ [0x50, 0x3FC, 0x800, 0xFFFC], ¬ (vec.bdBase ≤ n ∧ n + 4 ≤ vec.bdBase + 4 * vec.ringWords)) := by
  refine ⟨by decide, by decide, ?_, by decide, by decide⟩
  intro n h
  have hn : (BitVec.ofNat 16 n).toNat = n ∧ n % 4 = 0 ∧ 0x50 ≤ n := by revert n; decide
  refine ⟨hn.1, hn.2.1, fun r e => ?_⟩
  have := offsetOf_lt r
  rw [← e, hn.1] at this
  exact Nat.not_lt_of_le hn.2.2 this

theorem witness_PlainRegisterWriteStoresAllBits : ¬ hasSideEffect .intMask ∧ ¬ hasSideEffect .hash1 := by
  constructor <;> simp [hasSideEffect]

theorem witness_RegistersHoldTheValueLastWritten :
    (∃ s : State, Running s ∧ ¬ (s.cfg.backend = .socket ∧ s.cfg.socketSetupFatal = true) ∧
      s.sched = [.port .write (offsetOf .ipgt) 0xFFFFFFFF, .port .read (offsetOf .ipgt) 0]) ∧
    (∃ s : State, Running s ∧ ¬ (s.cfg.backend = .socket ∧ s.cfg.socketSetupFatal = true) ∧
      s.sched = [.port .write (offsetOf .moder) 0x800, .port .read (offsetOf .moder) 0]) ∧
    (∃ t, exec .txIdle s0 = .next t ∧ (∀ v, Instr.txIdle ≠ writeOf .ipgt v) ∧
      ∀ v, Instr.txIdle = .wrModer v → v.getLsbD 11 = false) ∧
    (∃ t, exec (.wrModer 0xA002) s0 = .next t ∧ (∀ v, Instr.wrModer 0xA002 ≠ writeOf .ipgt v) ∧
      (∀ v, Instr.wrModer 0xA002 = .wrModer v → v.getLsbD 11 = false) ∧
      ¬ IsTxStep (.wrModer 0xA002) ∧ ¬ IsRxStep (.wrModer 0xA002)) :=
  ⟨⟨{ small vec with sched := _ }, ⟨rfl, rfl⟩, by decide, rfl⟩, ⟨{ small vec with sched := _ }, ⟨rfl, rfl⟩, by decide, rfl⟩,
    ⟨_, rfl, by simp [writeOf], by simp⟩,
    ⟨_, rfl, by simp [writeOf], by rintro v ⟨⟩; decide, by simp [IsTxStep], by simp [IsRxStep]⟩⟩

/-- An edge of both enables, and of neither. -/
theorem witness_ModerWriteActsOnEnableEdges :
    BitVec.getLsbD 0xA003#32 11 = false ∧ BitVec.getLsbD 0xA000#32 11 = false ∧
    (s0.regs.moder.getLsbD 1 = false ∧ BitVec.getLsbD 0xA003#32 1 = true) ∧
    (s0.regs.moder.getLsbD 0 = false ∧ BitVec.getLsbD 0xA003#32 0 = true) ∧
    ¬ (s0.regs.moder.getLsbD 1 = false ∧ BitVec.getLsbD 0xA000#32 1 = true) ∧
    ¬ (s0.regs.moder.getLsbD 0 = false ∧ BitVec.getLsbD 0xA000#32 0 = true) := by decide

theorem witness_ModerWriteWithResetBitResetsTheDevice :
    BitVec.getLsbD 0x800#32 11 = true ∧
    (¬ (s0.cfg.backend = .socket ∧ s0.cfg.socketSetupFatal = true) ∧ s0.cfg.backend = .file ∧
      s0.cfg.bdRamReset = .zero) ∧
    (¬ (k0.cfg.backend = .socket ∧ k0.cfg.socketSetupFatal = true) ∧ k0.cfg.backend = .socket) ∧
    (∃ s : State, s.cfg.backend = .socket ∧ s.cfg.socketSetupFatal = true ∧ s.fault = none) :=
  ⟨by decide, by decide, by decide, ⟨{ small vec with cfg := { vecSock with socketSetupFatal := true } }, rfl, rfl, rfl⟩⟩

/-- The write that clears the last set bit, and one that does not. -/
theorem witness_IntSourceWriteClearsWrittenBits :
    (1#32 ≠ 0 ∧ writeOneToClear 1 1 = 0) ∧ ¬ (5#32 ≠ 0 ∧ writeOneToClear 5 1 = 0) := by decide

/-- The pointer's first value outside, the last inside, and, with an odd ring, the one whose word 1 is outside. -/
theorem witness_TxBdNumWriteMovesTheRxPointer :
    (small vec).bd.length = (small vec).cfg.ringWords ∧
    (small vec).cfg.ringWords ≤ 2 * BitVec.toNat 2#32 % 2 ^ 32 ∧
    2 * BitVec.toNat 1#32 % 2 ^ 32 + 1 < (small vec).cfg.ringWords ∧
    (∃ s : State, s.bd.length = s.cfg.ringWords ∧ 2 * BitVec.toNat 2#32 % 2 ^ 32 + 1 = s.cfg.ringWords) :=
  ⟨by decide, by decide, by decide, ⟨State.construct { vec with ringWords := 5 }, by decide⟩⟩

theorem witness_DescriptorWordReadAfterWrite :
    (small vec).bd.length = (small vec).cfg.ringWords ∧ 0 < (small vec).cfg.ringWords ∧
      3 < (small vec).cfg.ringWords := by decide

theorem witness_UnmappedAccessIsReportedOnly :
    ∀ n ∈ [0x50, 0x3FC, 0x402, 0x800, 0xFFFF], s0.cfg.unmapped (BitVec.ofNat 16 n).toNat = true := by decide

theorem witness_TxWaitBdPollsUntilReady :
    ∃ s : State, DescriptorAt s s.tx.idx 0x00407FFF 0x10000 ∧ BitVec.getLsbD 0x00407FFF#32 15 = false :=
  ⟨txW .waitBd 0x00407FFF 0x10000, ⟨rfl, rfl⟩, by decide⟩

theorem witness_TxWaitBdTakesReadyDescriptor :
    ∃ s : State, DescriptorAt s s.tx.idx 0x00008000 0x10000 ∧ BitVec.getLsbD 0x00008000#32 15 = true :=
  ⟨txW .waitBd 0x00008000 0x10000, ⟨rfl, rfl⟩, by decide⟩

/-- The first pointer outside, and the last word's. -/
theorem witness_WaitBdFaultsOutsideTheRam :
    ∃ s : State, s.bd.length < 2 ^ 32 ∧ s.bd.length ≤ s.tx.idx.toNat ∧ s.rx.idx.toNat + 1 = s.bd.length ∧
      ∃ t : State, t.bd.length < 2 ^ 32 ∧ t.tx.idx.toNat + 1 = t.bd.length ∧ t.bd.length ≤ t.rx.idx.toNat :=
  ⟨{ small vec with tx := { (small vec).tx with idx := 4 }, rx := { (small vec).rx with idx := 3 } }, by decide,
    by decide, by decide,
    { small vec with tx := { (small vec).tx with idx := 3 }, rx := { (small vec).rx with idx := 0xFFFFFFFF } },
    by decide⟩

/-- The device `vec` with a memory that does not admit the word at 0x10000. -/
def holed : Config := { vec with memHoles := [(0x10000, 4)] }

/-- The first word of five bytes, the last word, nothing left, and a word the memory does not admit. -/
theorem witness_TxReadFifoStagesOneWordUntilNothingIsLeft :
    (∃ s : State, s.tx.sent < s.tx.len.toNat ∧ s.tx.sent ≤ s.tx.fifo.length ∧ (txDmaAddr s).toNat % 4 = 0 ∧
      admitsWord s.cfg (txDmaAddr s) = true ∧
      ¬ (s.tx.len.toNat ≤ s.tx.sent + 4 ∧ s.cfg.readFifoExtraTick = false)) ∧
    (∃ s : State, s.tx.sent < s.tx.len.toNat ∧ s.tx.sent ≤ s.tx.fifo.length ∧ (txDmaAddr s).toNat % 4 = 0 ∧
      admitsWord s.cfg (txDmaAddr s) = true ∧ s.tx.len.toNat ≤ s.tx.sent + 4 ∧ s.cfg.readFifoExtraTick = false) ∧
    (∃ s : State, s.tx.len.toNat ≤ s.tx.sent) ∧
    (∃ s : State, s.tx.sent < s.tx.len.toNat ∧ (txDmaAddr s).toNat % 4 = 0 ∧
      admitsWord s.cfg (txDmaAddr s) = false) :=
  ⟨⟨txWStaged .readFifo 0 5 0 [], by decide⟩, ⟨txWStaged .readFifo 0 5 4 [0, 1, 2, 3], by decide⟩,
    ⟨txWStaged .readFifo 0 0 0 [], by decide⟩, ⟨{ txWStaged .readFifo 0 5 0 [] with cfg := holed }, by decide⟩⟩

theorem witness_MisalignedBufferFaultsBothEngines :
    (∃ s : State, s.tx.sent % 4 = 0 ∧ s.tx.buf.toNat % 4 ≠ 0 ∧ s.tx.sent < s.tx.len.toNat) ∧
    (∃ s : State, s.tx.len.toNat ≤ s.tx.sent ∧ s.tx.buf.toNat % 4 ≠ 0) ∧
    (∃ s : State, s.rx.done % 4 = 0 ∧ s.rx.buf.toNat % 4 ≠ 0) :=
  ⟨⟨{ small vec with tx := { (small vec).tx with buf := 1, len := 1 } }, by decide⟩,
    ⟨{ small vec with tx := { (small vec).tx with buf := 3, len := 0 } }, by decide⟩,
    ⟨{ small vec with rx := { (small vec).rx with buf := 2 } }, by decide⟩⟩

/-- FILE, with the interrupt and without. In the SOCKET variant whether the frame is accepted is a free value: it is
this statement or `TxTransmitShortWrite` that speaks. -/
theorem witness_TxTransmitSendsTheFrame :
    (∃ s : State, s.tx.idx.toNat < s.bd.length ∧ s.tx.len.toNat ≤ s.tx.fifo.length ∧ Accepts s ∧
      TxEnabled s 0 ∧ s.tx.bd.getLsbD 14 = true) ∧
    (∃ s : State, s.tx.idx.toNat < s.bd.length ∧ s.tx.len.toNat ≤ s.tx.fifo.length ∧ Accepts s ∧
      ¬ (TxEnabled s 0 ∧ s.tx.bd.getLsbD 14 = true)) ∧
    (Accepts k0 ↔ Config.freeBit k0.draws 0 = true) := by
  refine ⟨⟨{ txWStaged .transmit 0x4E000 4 4 [0, 1, 2, 3] with regs := { (small vec).regs with intMask := 1 } }, ?_⟩,
    ⟨txWStaged .transmit 0x4E000 4 4 [0, 1, 2, 3], ?_⟩, ?_⟩
  · exact ⟨Nat.zero_lt_succ _, by decide, ⟨rfl, by rintro ⟨⟩⟩, rfl, by decide⟩
  · exact ⟨Nat.zero_lt_succ _, by decide, ⟨rfl, by rintro ⟨⟩⟩, fun h => absurd h.1 (by rintro ⟨⟩)⟩
  · exact ⟨fun h => h.2 rfl, fun h => ⟨rfl, fun _ => h⟩⟩

/-- A frame, and a frame of length 0, at a sink that is not available; and a line that is asserted, and one that is
not. -/
theorem witness_TxTransmitShortWrite :
    (∃ s : State, s.tx.idx.toNat < s.bd.length ∧ ¬ Accepts s ∧ s.tx.len ≠ 0 ∧ TxEnabled s 1 ∧
      s.tx.bd.getLsbD 14 = true) ∧
    (∃ s : State, s.tx.idx.toNat < s.bd.length ∧ ¬ Accepts s ∧ s.tx.len = 0 ∧
      ¬ (TxEnabled s 0 ∧ s.tx.bd.getLsbD 14 = true)) := by
  refine ⟨⟨{ txWStaged .transmit 0x4E000 4 4 [0, 1, 2, 3] with
      cfg := { vec with txSinkAvailable := false }, regs := { (small vec).regs with intMask := 2 } }, ?_⟩,
    ⟨{ txWStaged .transmit 0x6000 0 0 [] with cfg := { vec with txSinkAvailable := false } }, ?_⟩⟩
  · exact ⟨Nat.zero_lt_succ _, fun h => absurd h.1 (by rintro ⟨⟩), by decide, rfl, by decide⟩
  · exact ⟨Nat.zero_lt_succ _, fun h => absurd h.1 (by rintro ⟨⟩), rfl, fun h => absurd h.1 (by rintro ⟨⟩)⟩

theorem witness_NextTxWrapsToWordZero :
    vec.defaultRing ∧ (vec.wrapLimit ≤ BitVec.toNat 254#32 ∧ ¬ vec.wrapLimit ≤ BitVec.toNat 252#32) ∧
    (BitVec.toNat 254#32 % 2 = 0 ∧ BitVec.toNat 254#32 + 1 < vec.ringWords) := by
  refine ⟨?_, by decide, by decide⟩
  unfold Config.defaultRing
  decide

/-- The shortest and the longest frame a descriptor can name. -/
theorem witness_TxFrameIsTheBufferInMemory :
    ∀ w0 ∈ [0x00008000#32, 0xFFFF8000#32], ∃ s : State, s.tx.state = .waitBd ∧ DescriptorAt s s.tx.idx w0 0xFFFFFFFC ∧
      w0.getLsbD 15 = true ∧ BitVec.toNat 0xFFFFFFFC#32 % 4 = 0 ∧ s.cfg.memHoles = [] := by
  intro w0 h
  refine ⟨txW .waitBd w0 0xFFFFFFFC, rfl, ⟨rfl, rfl⟩, ?_, by decide, rfl⟩
  simp only [List.mem_cons, List.not_mem_nil, or_false] at h
  rcases h with rfl | rfl <;> decide

theorem witness_TxDescriptorIsSentAndWrittenBack :
    ∃ s : State, s.tx.state = .waitBd ∧ DescriptorAt s s.tx.idx 0x00408000 0x10000 ∧
      BitVec.getLsbD 0x00408000#32 15 = true ∧ BitVec.toNat 0x10000#32 % 4 = 0 ∧ s.cfg.memHoles = [] ∧
      s.cfg.backend = .file ∧ s.cfg.txSinkAvailable = true :=
  ⟨txW .waitBd 0x00408000 0x10000, rfl, ⟨rfl, rfl⟩, by decide, by decide, rfl, rfl, rfl⟩

theorem witness_RxWaitBdTakesReadyDescriptor :
    (∃ s : State, DescriptorAt s s.rx.idx 0xE1FF 0x20000 ∧ BitVec.getLsbD 0xE1FF#32 15 = true ∧
      s.regs.moder.getLsbD 7 = false) ∧
    (∃ s : State, DescriptorAt s s.rx.idx 0x8000 0x20000 ∧ BitVec.getLsbD 0x8000#32 15 = true ∧
      s.regs.moder.getLsbD 7 = true) :=
  ⟨⟨rxW vec .waitBd 0xE1FF, ⟨rfl, rfl⟩, by decide, by decide⟩,
    ⟨{ rxW vec .waitBd 0x8000 with regs := { (small vec).regs with moder := 0xA081 } }, ⟨rfl, rfl⟩, by decide, by decide⟩⟩

theorem witness_RxWaitBdWithoutReadyDescriptor :
    BitVec.getLsbD 0x7FFF#32 15 = false ∧
    (∃ s : State, DescriptorAt s s.rx.idx 0x7FFF 0x20000 ∧ s.regs.moder.getLsbD 0 = false) ∧
    (∃ s : State, DescriptorAt s s.rx.idx 0x7FFF 0x20000 ∧ s.regs.moder.getLsbD 0 = true ∧ s.cfg.backend = .file) ∧
    (∃ s : State, DescriptorAt s s.rx.idx 0x7FFF 0x20000 ∧ s.regs.moder.getLsbD 0 = true ∧ s.sockq = []) ∧
    (∃ s : State, DescriptorAt s s.rx.idx 0x7FFF 0x20000 ∧ s.regs.moder.getLsbD 0 = true ∧
      s.cfg.backend = .socket ∧ s.sockq = [frame16] ∧ s.regs.intMask.getLsbD 4 = true) ∧
    (∃ s : State, DescriptorAt s s.rx.idx 0x7FFF 0x20000 ∧ s.regs.moder.getLsbD 0 = true ∧
      s.cfg.backend = .socket ∧ s.sockq = [[]] ∧ s.regs.intMask.getLsbD 4 = false) :=
  ⟨by decide, ⟨rxW vec .waitBd 0x7FFF, ⟨rfl, rfl⟩, by decide⟩,
    ⟨{ rxW vec .waitBd 0x7FFF with regs := { (small vec).regs with moder := 1 } }, ⟨rfl, rfl⟩, by decide, rfl⟩,
    ⟨{ rxW vecSock .waitBd 0x7FFF with regs := { (small vec).regs with moder := 1 } }, ⟨rfl, rfl⟩, by decide, rfl⟩,
    ⟨{ rxW vecSock .waitBd 0x7FFF with regs := { (small vec).regs with moder := 1, intMask := 0x10 }, sockq := [frame16] },
      ⟨rfl, rfl⟩, by decide, rfl, rfl, by decide⟩,
    ⟨{ rxW vecSock .waitBd 0x7FFF with regs := { (small vec).regs with moder := 1 }, sockq := [[]] },
      ⟨rfl, rfl⟩, by decide, rfl, rfl, by decide⟩⟩

/-- Nothing left, and three of the four length bytes; either source. -/
theorem witness_RecvFileAtEndOfStreamStops :
    (∃ s : State, s.rx.src = .rxFile ∧ (unread s.rx.src s).length < s.cfg.lenFieldBytes) ∧
    (∃ s : State, s.rx.src = .loopback ∧ (unread s.rx.src s).length + 1 = s.cfg.lenFieldBytes) :=
  ⟨⟨rxW vec .recv 0, rfl, by decide⟩,
    ⟨{ rxW vec .recv 0 with rx := { (small vec).rx with src := .loopback }, txs := [1, 2, 3] }, rfl, by decide⟩⟩

/-- The longest runt, of which nothing but the length is left, and the shortest, on the loopback stream. -/
theorem witness_RecvFileSkipsRunts :
    (∃ s : State, s.rx.src = .rxFile ∧ s.cfg.lenFieldBytes ≤ (unread s.rx.src s).length ∧
      13 = decLen s.cfg ((unread s.rx.src s).take s.cfg.lenFieldBytes) ∧ 13 < s.cfg.minHdrLen) ∧
    (∃ s : State, s.rx.src = .loopback ∧ s.cfg.lenFieldBytes ≤ (unread s.rx.src s).length ∧
      0 = decLen s.cfg ((unread s.rx.src s).take s.cfg.lenFieldBytes) ∧ 0 < s.cfg.minHdrLen) :=
  ⟨⟨rxW { vec with rxs := [13, 0, 0, 0] } .recv 0, by decide⟩,
    ⟨{ rxW vec .recv 0 with rx := { (small vec).rx with src := .loopback }, txs := [0, 0, 0, 0] }, by decide⟩⟩

/-- The shortest frame, whole; and the longest, with nothing of it left. -/
theorem witness_RecvFileCapturesTheRecord :
    (∃ s : State, s.cfg.lenFieldBytes ≤ (unread s.rx.src s).length ∧
      14 = decLen s.cfg ((unread s.rx.src s).take s.cfg.lenFieldBytes) ∧ s.cfg.minHdrLen ≤ 14 ∧ 14 ≤ s.cfg.maxFrame ∧
      s.rx.src = .rxFile ∧ s.cfg.lenFieldBytes + 14 ≤ (unread s.rx.src s).length) ∧
    (∃ s : State, s.cfg.lenFieldBytes ≤ (unread s.rx.src s).length ∧
      65535 = decLen s.cfg ((unread s.rx.src s).take s.cfg.lenFieldBytes) ∧ s.cfg.minHdrLen ≤ 65535 ∧
      65535 ≤ s.cfg.maxFrame ∧ s.rx.src = .loopback ∧ (unread s.rx.src s).length < s.cfg.lenFieldBytes + 65535) :=
  ⟨⟨rxW { vec with rxs := record14 } .recv 0, by decide⟩,
    ⟨{ rxW vec .recv 0 with rx := { (small vec).rx with src := .loopback }, txs := [0xFF, 0xFF, 0, 0] }, by decide⟩⟩

/-- The first length above `MAX_FRAME`. -/
theorem witness_FrameAboveMaxFrameFaults :
    (∃ s : State, s.cfg.lenFieldBytes ≤ (unread s.rx.src s).length ∧
      65536 = decLen s.cfg ((unread s.rx.src s).take s.cfg.lenFieldBytes) ∧ s.cfg.minHdrLen ≤ 65536 ∧
      s.cfg.maxFrame < 65536) ∧
    (∃ s : State, s.sockq = [frame16] ∧ frame16 ≠ [] ∧ s.cfg.maxFrame < frame16.length) :=
  ⟨⟨rxW { vec with rxs := [0, 0, 1, 0] } .recv 0, by decide⟩,
    ⟨{ rxW { vecSock with maxFrame := 15 } .recv 0 with sockq := [frame16] }, by decide⟩⟩

/-- Six bytes, the station address; another address; promiscuous mode. -/
theorem witness_RecvSocketFiltersByAddress :
    (∃ s : State, s.sockq = [[0x00, 0x11, 0x22, 0x33, 0x44, 0x55]] ∧ s.cfg.maxFrame = 6 ∧
      s.regs.moder.getLsbD 5 = false ∧ 0x00#8 ++ 0x11#8 = s.regs.macAddr1.extractLsb' 0 16 ∧
      0x22#8 ++ 0x33#8 ++ 0x44#8 ++ 0x55#8 = s.regs.macAddr0) ∧
    (∃ s : State, s.sockq = [frameOther] ∧ 6 ≤ frameOther.length ∧ frameOther.length ≤ s.cfg.maxFrame ∧
      ¬ (s.regs.moder.getLsbD 5 = true ∨
        (∃ b0 b1 b2 b3 b4 b5 : Byte, ∃ rest : List Byte, frameOther = b0 :: b1 :: b2 :: b3 :: b4 :: b5 :: rest ∧
          b0 ++ b1 = s.regs.macAddr1.extractLsb' 0 16 ∧ b2 ++ b3 ++ b4 ++ b5 = s.regs.macAddr0))) ∧
    (∃ s : State, s.sockq = [frameOther] ∧ frameOther.length ≤ s.cfg.maxFrame ∧ s.regs.moder.getLsbD 5 = true) := by
  refine ⟨⟨{ rxW { vecSock with maxFrame := 6 } .recv 0 with sockq := _ }, rfl, rfl, by decide, by decide, by decide⟩,
    ⟨{ rxW vecSock .recv 0 with sockq := [frameOther] }, rfl, by decide, by decide, ?_⟩,
    ⟨{ rxW vecSock .recv 0 with sockq := [frameOther], regs := { (small vec).regs with moder := 0x21 } }, by decide⟩⟩
  rintro (h | ⟨b0, b1, b2, b3, b4, b5, rest, h, -, h2⟩)
  · revert h; decide
  · obtain ⟨rfl, rfl, rfl, rfl, rfl, rfl, rfl⟩ : b0 = 0x00 ∧ b1 = 0x11 ∧ b2 = 0x22 ∧ b3 = 0x33 ∧ b4 = 0x44 ∧ b5 = 0x56 ∧
        rest = List.replicate 10 0 := by
      simp only [frameOther, List.cons.injEq] at h
      obtain ⟨h0, h1, h2, h3, h4, h5, h6⟩ := h
      exact ⟨h0.symm, h1.symm, h2.symm, h3.symm, h4.symm, h5.symm, h6.symm⟩
    revert h2; decide

theorem witness_RecvSocketWithoutAnAddress :
    k0.sockq = [] ∧ (∃ s : State, s.sockq = [[]]) ∧
    (∃ s : State, s.sockq = [[7]] ∧ [7#8] ≠ [] ∧ [7#8].length < 6 ∧ [7#8].length ≤ s.cfg.maxFrame) ∧
    (∃ s : State, s.sockq = [[1, 2, 3, 4, 5]] ∧ [1#8, 2, 3, 4, 5].length < 6 ∧
      [1#8, 2, 3, 4, 5].length ≤ s.cfg.maxFrame ∧ s.regs.moder.getLsbD 5 = true) :=
  ⟨rfl, ⟨{ small vecSock with sockq := [[]] }, rfl⟩, ⟨{ small vecSock with sockq := [[7]] }, by decide⟩,
    ⟨{ small vecSock with sockq := [[1, 2, 3, 4, 5]], regs := { (small vec).regs with moder := 0x20 } }, by decide⟩⟩

/-- Five bytes, the first four of them; and a word the memory does not admit. -/
theorem witness_RxWriteFifoStoresOneWord :
    (∃ s : State, (rxDmaAddr s).toNat % 4 = 0 ∧ Memory.wf s.mem = true ∧ admitsWord s.cfg (rxDmaAddr s) = true ∧
      s.rx.done + 4 < s.rx.len ∧ s.rx.len ≤ s.rx.fifo.length) ∧
    (∃ s : State, (rxDmaAddr s).toNat % 4 = 0 ∧ admitsWord s.cfg (rxDmaAddr s) = false) :=
  ⟨⟨rxWStaged 0xE000 [1, 2, 3, 4, 5] 0, by decide⟩,
    ⟨{ small holed with rx := { (small holed).rx with buf := 0x10000, done := 0 } }, by decide⟩⟩

/-- One byte past a word, and a whole word; with the interrupt and without. -/
theorem witness_RxWriteFifoCompletesTheFrame :
    (∃ s : State, Memory.wf s.mem = true ∧ (rxDmaAddr s).toNat % 4 = 0 ∧ admitsWord s.cfg (rxDmaAddr s) = true ∧
      s.rx.done < s.rx.len ∧ s.rx.len ≤ s.rx.done + 4 ∧ s.rx.len ≤ s.rx.fifo.length ∧
      s.rx.idx.toNat < s.bd.length ∧ s.regs.intMask.getLsbD 2 = true ∧ s.rx.bd.getLsbD 14 = true) ∧
    (∃ s : State, Memory.wf s.mem = true ∧ (rxDmaAddr s).toNat % 4 = 0 ∧ admitsWord s.cfg (rxDmaAddr s) = true ∧
      s.rx.done < s.rx.len ∧ s.rx.len ≤ s.rx.done + 4 ∧ s.rx.len ≤ s.rx.fifo.length ∧
      s.rx.idx.toNat < s.bd.length ∧ ¬ (s.regs.intMask.getLsbD 2 = true ∧ s.rx.bd.getLsbD 14 = true)) := by
  refine ⟨⟨{ rxWStaged 0xE000 [1, 2, 3, 4, 5] 4 with regs := { (small vec).regs with intMask := 4 } }, ?_⟩,
    ⟨rxWStaged 0xE000 [1, 2, 3, 4] 0, ?_⟩⟩
  · exact ⟨rfl, by decide, by decide, by decide, by decide, by decide, by decide, by decide,
      by decide⟩
  · exact ⟨rfl, by decide, by decide, by decide, by decide, by decide, by decide, by decide⟩

theorem witness_RxCompletionOutsideTheRamFaults :
    ∃ s : State, (rxDmaAddr s).toNat % 4 = 0 ∧ admitsWord s.cfg (rxDmaAddr s) = true ∧ s.rx.len ≤ s.rx.done + 4 ∧
      s.bd.length ≤ s.rx.idx.toNat :=
  ⟨{ small vec with rx := { (small vec).rx with buf := 0x20000, len := 4, idx := 4 } }, by decide,
    by decide, by decide, by decide⟩

/-- The first pointer that wraps, the last that does not, and a step that completes a frame. -/
theorem witness_NextRxWrapsToTwiceTxBdNum :
    vec.wrapLimit ≤ BitVec.toNat 254#32 ∧ ¬ (false = true ∨ vec.wrapLimit ≤ BitVec.toNat 252#32) ∧
    (∃ s : State, (rxDmaAddr s).toNat % 4 = 0 ∧ admitsWord s.cfg (rxDmaAddr s) = true ∧ s.rx.len ≤ s.rx.done + 4 ∧
      s.rx.idx.toNat < s.bd.length) :=
  ⟨by decide, by decide, ⟨rxWStaged 0xE000 [1, 2, 3, 4] 0, by decide⟩⟩

/-- The shortest frame and the longest. -/
theorem witness_ReceivedFrameStandsInMemory :
    ∀ n ∈ [1, 65535], ∃ s : State, Memory.wf s.mem = true ∧ s.cfg.memHoles = [] ∧ s.rx.state = .writeFifo ∧
      s.rx.done = 0 ∧ 1 ≤ s.rx.len ∧ s.rx.len ≤ 65535 ∧ s.rx.len ≤ s.rx.fifo.length ∧ s.rx.buf.toNat % 4 = 0 ∧
      s.rx.idx.toNat < s.bd.length := by
  intro n h
  have h1 : 1 ≤ n ∧ n ≤ 65535 := by
    simp only [List.mem_cons, List.not_mem_nil, or_false] at h
    omega
  exact ⟨{ small vec with
    rx := { (small vec).rx with
      state := .writeFifo, idx := 2, buf := 0xFFFFFFFC, len := n, fifo := List.replicate n 0 } },
    rfl, rfl, rfl, rfl, h1.1, h1.2, Nat.le_of_eq List.length_replicate.symm,
    (by decide : BitVec.toNat 0xFFFFFFFC#32 % 4 = 0), (by decide : 2 < 4)⟩

theorem witness_FileRecordIsReceived :
    ∃ (s : State) (p : List Byte), Memory.wf s.mem = true ∧ s.cfg.memHoles = [] ∧ s.cfg.backend = .file ∧
      s.cfg.rxSourceAvailable = true ∧ s.rx.state = .idle ∧ s.regs.moder.getLsbD 7 = false ∧
      DescriptorAt s s.rx.idx 0xE000 0x20000 ∧ BitVec.getLsbD 0xE000#32 15 = true ∧
      BitVec.toNat 0x20000#32 % 4 = 0 ∧ s.cfg.rxs.drop s.rxOff = encLen s.cfg p.length ++ p ++ [] ∧
      p.length < 256 ^ s.cfg.lenFieldBytes ∧ 1 ≤ p.length ∧ s.cfg.minHdrLen ≤ p.length ∧
      p.length ≤ s.cfg.maxFrame ∧ p.length ≤ 65535 :=
  ⟨rxW { vec with rxs := record14 } .idle 0xE000, record14.drop 4, rfl, rfl, rfl, rfl, rfl, by decide, ⟨rfl, rfl⟩,
    by decide, by decide, by decide, by decide, by decide, by decide, by decide, by decide⟩

/-- The least and the greatest length, in either order. -/
theorem witness_DecInvertsEnc :
    (∀ n ∈ [0, 4294967295], n < 256 ^ vec.lenFieldBytes) ∧ vec.hostEndian = .little ∧
    Config.hostEndian { vec with hostEndian := .big } = .big ∧ 0 < vec.lenFieldBytes ∧ 3 < vec.lenFieldBytes := by decide

theorem witness_StreamReadTakesFromTheCursor :
    (0 < (takeAt [1, 2, 3] 1 2).length ∧ 1 < (takeAt [1, 2, 3] 1 2).length) ∧ [1#8, 2, 3].length ≤ 3 ∧
    (takeAt [1, 2, 3] 1 3).length < 3 ∧ RxSource.loopback ≠ .rxFile ∧ RxSource.rxFile ≠ .loopback ∧
    (takeAt (sourceBytes .rxFile (rxW { vec with rxs := record14 } .recv 0)) 0 4).length = 4 ∧
    (takeAt (sourceBytes .rxFile (rxW { vec with rxs := record14 } .recv 0)) 15 4).length ≠ 4 := by decide

theorem witness_LoopbackCursorOnlyAdvances :
    (∃ s t : State, exec .rxRecvFile s = .next t ∧ t.lbOff ≠ s.lbOff) ∧
    (∃ s t : State, exec (.wrModer 0x800) s = .next t ∧ t.lbOff ≠ s.lbOff) :=
  ⟨⟨{ rxW vec .recv 0 with rx := { (small vec).rx with src := .loopback }, txs := [1] }, _, rfl, by decide⟩,
    ⟨{ small vec with lbOff := 20 }, _, rfl, by decide⟩⟩

theorem witness_FrameArrivalQueuesTheFrame :
    (∃ s : State, Running s ∧ s.sched = [.arrive frame16] ∧ s.cfg.backend = .socket ∧ s.cfg.rxSourceAvailable = true) ∧
    (∃ s : State, Running s ∧ s.sched = [.arrive []] ∧ s.cfg.backend = .file) ∧
    (∃ s : State, Running s ∧ s.sched = [.arrive frame16] ∧ s.cfg.rxSourceAvailable = false) :=
  ⟨⟨{ small vecSock with sched := _ }, ⟨rfl, rfl⟩, rfl, rfl, rfl⟩, ⟨{ small vec with sched := _ }, ⟨rfl, rfl⟩, rfl, rfl⟩,
    ⟨{ small vecSock with cfg := { vecSock with rxSourceAvailable := false }, sched := _ }, ⟨rfl, rfl⟩, rfl, rfl⟩⟩

theorem witness_LineFallsOnlyByAcknowledgeOrReset :
    (∃ s t : State, exec (.wrIntSource 1) s = .next t ∧ s.irq = true ∧ t.irq = false) ∧
    (∃ s t : State, exec (.wrModer 0x800) s = .next t ∧ s.irq = true ∧ t.irq = false) :=
  ⟨⟨{ small vec with regs := { (small vec).regs with intSource := 1 }, irq := true }, _, rfl, rfl, by decide⟩,
    ⟨{ small vec with irq := true }, _, rfl, rfl, by decide⟩⟩

set_option maxRecDepth 2000 in
theorem witness_LineRisesOnlyByAnEngineEvent :
    (∃ s : State, s.irq = false ∧ after (exec .txTransmit s) State.irq = some true) ∧
    (∃ s : State, s.irq = false ∧ after (exec .rxWriteFifo s) State.irq = some true) ∧
    (∃ s : State, s.irq = false ∧ after (exec .rxWaitBd s) State.irq = some true) :=
  ⟨⟨{ txWStaged .transmit 0x6000 0 0 [] with regs := { (small vec).regs with intMask := 1 } }, by decide⟩,
    ⟨{ rxWStaged 0xE000 frame16 12 with regs := { (small vec).regs with intMask := 4 } }, by decide⟩,
    ⟨{ rxW vecSock .waitBd 0 with regs := { (small vec).regs with moder := 1, intMask := 0x10 }, sockq := [[]] }, by decide⟩⟩

theorem witness_SourceBitsAreSetByEngineEvents :
    (∃ t, exec .rdModer s0 = .next t ∧ ¬ IsTxStep .rdModer ∧ ¬ IsRxStep .rdModer) ∧
    (∃ t, exec .txIdle s0 = .next t ∧ IsTxStep .txIdle) ∧
    (∃ t, exec .rxWaitBd (rxW vec .waitBd 0) = .next t ∧ IsRxStep .rxWaitBd) :=
  ⟨⟨_, rfl, by simp [IsTxStep], by simp [IsRxStep]⟩, ⟨_, rfl, by simp [IsTxStep]⟩, ⟨_, rfl, by simp [IsRxStep]⟩⟩

theorem witness_OnlyRxWriteFifoStoresToMemory :
    (∃ t, exec .txReadFifo (txWStaged .readFifo 0 4 0 []) = .next t) ∧
    Memory.wf (txWStaged .readFifo 0 4 0 []).mem = true ∧
    (∃ t, exec .rxWriteFifo (rxWStaged 0xE000 frame16 0) = .next t) ∧ Memory.wf (rxWStaged 0xE000 frame16 0).mem = true ∧
    (∃ s : State, Running s ∧ s.sched = [.store 0xFFFFFFFF [1, 2]] ∧ Memory.wf s.mem = true ∧
      [1#8, 2].length ≤ 2 ^ 32 ∧ [1#8, 2][1]? = some 2) :=
  ⟨⟨_, rfl⟩, by decide, ⟨_, rfl⟩, by decide, ⟨{ small vec with sched := _ }, ⟨rfl, rfl⟩, rfl, rfl, by decide, rfl⟩⟩

set_option maxRecDepth 2000 in
theorem witness_EnginesWriteBackOnlyTheirOwnWord :
    (∃ s : State, after (exec .txTransmit s) (fun t => t.bd[0]?) ≠ some s.bd[0]? ∧ IsTxStep .txTransmit) ∧
    (∃ s : State, after (exec .rxWriteFifo s) (fun t => t.bd[2]?) ≠ some s.bd[2]? ∧ IsRxStep .rxWriteFifo) ∧
    (∃ s : State, after (exec (.wrBd 3 7) s) (fun t => t.bd[3]?) ≠ some s.bd[3]?) :=
  ⟨⟨txWStaged .transmit 0xA000 0 0 [], by decide, by simp [IsTxStep]⟩,
    ⟨rxWStaged 0xE000 frame16 12, by decide, by simp [IsRxStep]⟩, ⟨small vec, by decide⟩⟩

/-- Each engine's steps with a next state, and a step that faults. -/
theorem witness_EnginesIgnoreEachOthersWorkingState :
    IsTxStep .txIdle ∧ IsRxStep .rxIdle ∧ (∃ t, exec .txIdle s0 = .next t) ∧ (∃ t, exec .rxIdle s0 = .next t) ∧
    (∃ s : State, ∃ f, exec .rxWriteFifo s = .fault f) :=
  ⟨by simp [IsTxStep], by simp [IsRxStep], ⟨_, rfl⟩, ⟨_, rfl⟩, ⟨{ small vec with rx := { (small vec).rx with buf := 1 } }, _, rfl⟩⟩

theorem witness_RecordsOnlyGrow :
    ∃ t, exec (.rdUnmapped 0x50) s0 = .next t ∧ t.history ≠ s0.history ∧ t.busOut ≠ s0.busOut :=
  ⟨_, rfl, by decide, by decide⟩

theorem witness_StepRunsTheDecodedPortAccess :
    (∃ s : State, Running s ∧ s.sched = [.port .read 0 0]) ∧
    (∃ s : State, Running s ∧ s.sched = [.port .write 0xFFFF 1]) :=
  ⟨⟨{ small vec with sched := _ }, ⟨rfl, rfl⟩, rfl⟩, ⟨{ small vec with sched := _ }, ⟨rfl, rfl⟩, rfl⟩⟩

/-- The first and the last byte of a window at 0x1000, and the addresses on either side. -/
theorem witness_BusAccessIsRoutedByTheWindow :
    (∀ acc : BusAccess, ∃ s : State, Running s ∧ s.cfg = { vec with base := 0x1000 } ∧ s.cfg.regionSize ≤ 0x10000 ∧
      s.sched = [.bus acc]) ∧
    (BitVec.toNat 0x1000#32 = BitVec.toNat 0x1000#32 + 0 ∧ 0 < vec.regionSize) ∧
    (BitVec.toNat 0x17FF#32 = BitVec.toNat 0x1000#32 + 0x7FF ∧ 0x7FF < vec.regionSize) ∧
    BitVec.toNat 0xFFF#32 < BitVec.toNat 0x1000#32 ∧
    BitVec.toNat 0x1000#32 + vec.regionSize ≤ BitVec.toNat 0x1800#32 :=
  ⟨fun _ => ⟨{ small vec with cfg := { vec with base := 0x1000 }, sched := _ }, ⟨rfl, rfl⟩, rfl, (by decide : 0x800 ≤ 0x10000), rfl⟩,
    by decide, by decide, by decide, by decide⟩

theorem witness_TurnRunsTheEngineStep :
    (∃ s : State, Running s ∧ s.sched = [.txTurn] ∧ s.txDue = true ∧ s.regs.moder.getLsbD 1 = true) ∧
    (∃ s : State, Running s ∧ s.sched = [.rxTurn] ∧ s.rxDue = true ∧ s.regs.moder.getLsbD 0 = true) :=
  ⟨⟨{ small vec with regs := { (small vec).regs with moder := 3 }, sched := [.txTurn], txDue := true }, ⟨rfl, rfl⟩, rfl,
      rfl, by decide⟩,
    ⟨{ small vec with regs := { (small vec).regs with moder := 3 }, sched := [.rxTurn], rxDue := true }, ⟨rfl, rfl⟩, rfl,
      rfl, by decide⟩⟩

/-- For every pattern of enables, every state of the tick and every schedule there is a running state: no clause is
empty, and two clauses of one slot differ in the enables or in the tick. -/
theorem witness_EachTickGivesAnActiveEngineOneStep :
    ∀ (sched : List Slot) (txDue rxDue : Bool), ∀ moder ∈ [0#32, 1, 2, 3], ∃ s : State, Running s ∧ s.sched = sched ∧
      s.txDue = txDue ∧ s.rxDue = rxDue ∧ s.regs.moder.getLsbD 1 = moder.getLsbD 1 ∧
      s.regs.moder.getLsbD 0 = moder.getLsbD 0 :=
  fun sched txDue rxDue moder _ =>
    ⟨{ small vec with regs := { (small vec).regs with moder := moder }, sched := sched, txDue := txDue, rxDue := rxDue },
      ⟨rfl, rfl⟩, rfl, rfl, rfl, rfl, rfl⟩

/-- Both engines active with nothing scheduled and TX's step of the tick taken: RX takes its own, and the RX step after
that has a next state too; neither stops the run. -/
theorem witness_ActiveEngineStepsWithinThreeSteps :
    ∃ s t u : State, (Running s ∧ s.sched = [] ∧ s.regs.moder.getLsbD 1 = true ∧ s.regs.moder.getLsbD 0 = true) ∧
      (step s = .next t ∧ t.stop = false) ∧ exec (decodeRx t.cfg.backend (rxCode t.rx.state)) t = .next u ∧
      u.stop = false := by
  refine ⟨{ rxW vec .idle 0 with regs := { (small vec).regs with moder := 3 }, rxDue := true }, ?_⟩
  exact ⟨_, _, ⟨⟨rfl, rfl⟩, rfl, by decide, by decide⟩, ⟨by exact rfl, by exact rfl⟩, by exact rfl, by exact rfl⟩

theorem witness_EnginesStepOnlyWhileEnabled :
    (∃ s u : State, fetch s = .run .txIdle u ∧ IsTxStep .txIdle) ∧
    (∃ s u : State, fetch s = .run .rxIdle u ∧ IsRxStep .rxIdle) :=
  ⟨⟨{ small vec with regs := { (small vec).regs with moder := 2 }, sched := [.txTurn] }, _, rfl, by simp [IsTxStep]⟩,
    ⟨{ small vec with regs := { (small vec).regs with moder := 1 }, sched := [.rxTurn] }, _, rfl, by simp [IsRxStep]⟩⟩

theorem witness_HaltedMachineTakesNoStep :
    (∃ s : State, s.stop = true ∧ s.halted) ∧ (∃ s : State, s.fault.isSome = true ∧ s.halted) ∧
    (∃ s : State, ∃ f, step s = .fault (.raised f)) :=
  ⟨⟨{ small vec with stop := true }, rfl, .inl rfl⟩,
    ⟨{ small vec with fault := some (.frameTooLarge .rx 70000) }, rfl, .inr rfl⟩,
    ⟨{ small vec with
        regs := { (small vec).regs with moder := 1 }, rx := { (small vec).rx with state := .writeFifo, buf := 1 }, sched := [.rxTurn] },
      _, rfl⟩⟩

theorem witness_ConstructedDeviceHoldsResetValues :
    ¬ (vec.backend = .socket ∧ vec.socketSetupFatal = true) ∧
    ¬ (vecSock.backend = .socket ∧ vecSock.socketSetupFatal = true) ∧
    resetValue .moder = some 0xA000 ∧ resetValue .hash1 = some 0 ∧ vec.bdRamReset = .zero :=
  ⟨by decide, by decide, rfl, rfl, rfl⟩

/-- A state that meets the invariant, with a register write to run. -/
theorem witness_EveryStepKeepsTheInvariant :
    ∃ s t : State, s.Inv ∧ step s = .next t ∧ t.regs.ipgt ≠ s.regs.ipgt := by
  refine ⟨{ small vec with sched := [.port .write 0x0C 1] }, _, ?_, rfl, by decide⟩
  constructor
  · rfl
  · rfl
  · decide
  · decide
  · intro h; cases h
  · intro _; rfl
  · intro _; rfl
  · rfl
  · exact Nat.zero_le _
  · intro h; cases h
  · rfl
  · exact Nat.zero_le _
  · intro h; cases h

theorem witness_EveryStepKeepsTheTxPointerInRam :
    ∃ s t : State, step s = .next t ∧ s.cfg.defaultRing ∧ s.TxPointerInRam := by
  refine ⟨{ small vec with tx := { (small vec).tx with idx := 2 }, sched := [.port .write 0x0C 1] }, _, rfl, ?_, ?_⟩
  · unfold Config.defaultRing; decide
  · unfold State.TxPointerInRam; decide

end Sys2Proof.Tests
end

/-! SUPPORT. What every operation does to the register file, said once, and the obligation that registers hold
the value last written to them (R33, R35). -/

namespace Sys2Proof.Machine

/-! ### The register file -/

theorem RegFile.get_set (f : RegFile) (r q : Reg) (v : Word) :
    (f.set r v).get q = if q = r then v else f.get q := by
  cases r <;> cases q <;> rfl

@[simp] theorem RegFile.get_set_same (f : RegFile) (r : Reg) (v : Word) : (f.set r v).get r = v :=
  (f.get_set r r v).trans (if_pos rfl)

theorem RegFile.get_set_other (f : RegFile) {q r : Reg} (v : Word) (h : q ≠ r) : (f.set r v).get q = f.get q :=
  (f.get_set r q v).trans (if_neg h)

/-! ### The registers after a shared operation -/

@[simp] theorem resetState_stop (s : State) : (resetState s).stop = s.stop := by simp [resetState]
@[simp] theorem resetState_fault (s : State) : (resetState s).fault = s.fault := by simp [resetState]
@[simp] theorem resetState_sched (s : State) : (resetState s).sched = s.sched := by simp [resetState]
@[simp] theorem resetState_busOut (s : State) : (resetState s).busOut = s.busOut := by simp [resetState]

@[simp] theorem rxCapture_regs (p : Frame) (s : State) : (rxCapture p s).regs = s.regs := rfl

@[simp] theorem txSnapshot_regs (w0 w1 : Word) (s : State) : (txSnapshot w0 w1 s).regs = s.regs := by
  unfold txSnapshot
  split <;> simp

/-- From the registers `f` to the registers `g`, at most one bit of INT_SOURCE was raised (R35). -/
def AtMostRaised (f g : RegFile) : Prop :=
  g = f ∨ ∃ src, g = { f with intSource := setBit f.intSource (intBit src) }

theorem AtMostRaised.set_intSource {f g : RegFile} (h : AtMostRaised f g) : g = f.set .intSource g.intSource := by
  obtain rfl | ⟨src, rfl⟩ := h <;> rfl

/-- TXB is raised where the frame was sent whole, and TXE otherwise (R267). -/
theorem txComplete_regs (s : State) : AtMostRaised s.regs (txComplete s).regs :=
  .inr ⟨if (txSend (txFrame s) s).1 == s.tx.len.toNat then .txb else .txe, by simp [txComplete]⟩

theorem completeRx_regs (s : State) : AtMostRaised s.regs (completeRx s).regs :=
  .inr ⟨.rxb, by simp [completeRx]⟩

/-- BUSY is raised where a frame was discarded (R305). -/
theorem rxBusy_regs (s : State) : AtMostRaised s.regs (rxBusy s).regs := by
  unfold rxBusy
  cases s.cfg.backend with
  | file => exact .inl rfl
  | socket =>
    unfold sockProbe
    cases s.sockq with
    | nil => exact .inl rfl
    | cons f q => exact .inr ⟨.busy, by simp⟩

theorem rxSnapshot_regs (w0 w1 : Word) (s : State) : AtMostRaised s.regs (rxSnapshot w0 w1 s).regs := by
  unfold rxSnapshot
  split
  · exact .inl rfl
  · split
    · exact .inl rfl
    · exact rxBusy_regs _

end Sys2Proof.Machine

namespace Sys2Proof.Claims

open Sys2Proof.Machine

/-! ### The kinds of operation -/

/-- An operation by what it acts on: a register, the descriptor RAM, nothing, or an engine. -/
inductive Kind : Instr → Prop where
  | read (r : Reg) : Kind (readOf r)
  | write (r : Reg) (v : Word) : Kind (writeOf r v)
  | rdBd (k : Nat) : Kind (.rdBd k)
  | wrBd (k : Nat) (v : Word) : Kind (.wrBd k v)
  | rdUnmapped (off : BitVec 16) : Kind (.rdUnmapped off)
  | wrUnmapped (off : BitVec 16) (v : Word) : Kind (.wrUnmapped off v)
  | tx {i : Instr} (h : IsTxStep i) : Kind i
  | rx {i : Instr} (h : IsRxStep i) : Kind i

/-- Every operation of the table is of one of the kinds. -/
theorem kind : (i : Instr) → Kind i
  | .rdModer => .read .moder
  | .rdIntSource => .read .intSource
  | .rdIntMask => .read .intMask
  | .rdIpgt => .read .ipgt
  | .rdIpgr1 => .read .ipgr1
  | .rdIpgr2 => .read .ipgr2
  | .rdPacketLen => .read .packetLen
  | .rdCollConf => .read .collConf
  | .rdTxBdNum => .read .txBdNum
  | .rdCtrlModer => .read .ctrlModer
  | .rdMiiModer => .read .miiModer
  | .rdMiiCommand => .read .miiCommand
  | .rdMiiAddress => .read .miiAddress
  | .rdMiiTxData => .read .miiTxData
  | .rdMiiRxData => .read .miiRxData
  | .rdMiiStatus => .read .miiStatus
  | .rdMacAddr0 => .read .macAddr0
  | .rdMacAddr1 => .read .macAddr1
  | .rdHash0 => .read .hash0
  | .rdHash1 => .read .hash1
  | .wrModer v => .write .moder v
  | .wrIntSource v => .write .intSource v
  | .wrIntMask v => .write .intMask v
  | .wrIpgt v => .write .ipgt v
  | .wrIpgr1 v => .write .ipgr1 v
  | .wrIpgr2 v => .write .ipgr2 v
  | .wrPacketLen v => .write .packetLen v
  | .wrCollConf v => .write .collConf v
  | .wrTxBdNum v => .write .txBdNum v
  | .wrCtrlModer v => .write .ctrlModer v
  | .wrMiiModer v => .write .miiModer v
  | .wrMiiCommand v => .write .miiCommand v
  | .wrMiiAddress v => .write .miiAddress v
  | .wrMiiTxData v => .write .miiTxData v
  | .wrMiiRxData v => .write .miiRxData v
  | .wrMiiStatus v => .write .miiStatus v
  | .wrMacAddr0 v => .write .macAddr0 v
  | .wrMacAddr1 v => .write .macAddr1 v
  | .wrHash0 v => .write .hash0 v
  | .wrHash1 v => .write .hash1 v
  | .rdBd k => .rdBd k
  | .wrBd k v => .wrBd k v
  | .rdUnmapped off => .rdUnmapped off
  | .wrUnmapped off v => .wrUnmapped off v
  | .txIdle => .tx (.inl rfl)
  | .txWaitBd => .tx (.inr (.inl rfl))
  | .txReadFifo => .tx (.inr (.inr (.inl rfl)))
  | .txTransmit => .tx (.inr (.inr (.inr rfl)))
  | .rxIdle => .rx (.inl rfl)
  | .rxWaitBd => .rx (.inr (.inl rfl))
  | .rxRecvFile => .rx (.inr (.inr (.inl rfl)))
  | .rxRecvSocket => .rx (.inr (.inr (.inr (.inl rfl))))
  | .rxWriteFifo => .rx (.inr (.inr (.inr (.inr rfl))))

/-! ### Register accesses -/

theorem decodeRead_offsetOf (cfg : Config) (r : Reg) : decodeRead cfg (offsetOf r) = readOf r := by
  cases r <;> rfl

theorem decodeWrite_offsetOf (cfg : Config) (r : Reg) (v : Word) :
    decodeWrite cfg (offsetOf r) v = writeOf r v := by
  cases r <;> rfl

theorem exec_readOf (r : Reg) (s : State) : exec (readOf r) s = .next (respond (s.regs.get r) s) := by
  cases r <;> rfl

/-- What a write of `v` to a register stores where it does not reset the device: `v`, but a write to INT_SOURCE
only clears (R33, R188). -/
def storedByWrite (r : Reg) (v : Word) (f : RegFile) : Word :=
  match r with
  | .intSource => writeOneToClear f.intSource v
  | _ => v

/-- `t` is as `s` in what decides whether and how the run goes on, and in the answers given so far. -/
structure SameRun (s t : State) : Prop where
  stop : t.stop = s.stop
  fault : t.fault = s.fault
  sched : t.sched = s.sched
  busOut : t.busOut = s.busOut

theorem writeModer_regs (v : Word) (s : State) : (writeModer v s).regs = s.regs.set .moder v := by
  obtain ⟨-, -, h⟩ | ⟨-, -, h⟩ | ⟨-, -, h⟩ | ⟨-, -, h⟩ := writeModer_cases v s <;> rw [h] <;> rfl

theorem sameRun_writeModer (v : Word) (s : State) : SameRun s (writeModer v s) := by
  obtain ⟨-, -, h⟩ | ⟨-, -, h⟩ | ⟨-, -, h⟩ | ⟨-, -, h⟩ := writeModer_cases v s <;> rw [h] <;>
    exact ⟨rfl, rfl, rfl, rfl⟩

theorem sameRun_resetState (s : State) : SameRun s (resetState s) := ⟨by simp, by simp, by simp, by simp⟩

/-- A register write that does not reset the device changes no register but its own. -/
theorem exec_writeOf_of_no_reset (r : Reg) (v : Word) (s : State) (h : r = .moder → moderRst v = false) :
    ∃ t, exec (writeOf r v) s = .next t ∧ t.regs = s.regs.set r (storedByWrite r v s.regs) ∧ SameRun s t := by
  cases r with
  | moder =>
    have hv : ¬ moderRst v = true := by simp [h rfl]
    exact ⟨writeModer v s, if_neg hv, writeModer_regs v s, sameRun_writeModer v s⟩
  | _ => exact ⟨_, rfl, rfl, rfl, rfl, rfl, rfl⟩

theorem exec_wrModer_of_reset (v : Word) (s : State) (hv : moderRst v = true)
    (hf : ¬ (s.cfg.backend = .socket ∧ s.cfg.socketSetupFatal = true)) :
    exec (writeOf .moder v) s = .next (resetState s) :=
  (if_pos hv).trans (if_neg hf)

/-- What a register holds after a write of `v` to it, a reset by the write included (R33). -/
def heldAfterWrite (r : Reg) (v : Word) (f : RegFile) : Word :=
  if r = .intSource then f.intSource &&& ~~~v
  else if r = .moder ∧ v.getLsbD 11 = true then 0x0000A000
  else v

theorem storedByWrite_eq_heldAfterWrite {r : Reg} {v : Word} (f : RegFile) (h : r = .moder → moderRst v = false) :
    storedByWrite r v f = heldAfterWrite r v f := by
  have hm : ¬ (r = .moder ∧ v.getLsbD 11 = true) := fun ⟨hr, hv⟩ => Bool.false_ne_true ((h hr).symm.trans hv)
  rw [heldAfterWrite, if_neg hm]
  cases r <;> rfl

/-- A register write with a next state leaves in the register what the next read is to answer. -/
theorem exec_writeOf_holds (r : Reg) (v : Word) (s : State)
    (hf : ¬ (s.cfg.backend = .socket ∧ s.cfg.socketSetupFatal = true)) :
    ∃ t, exec (writeOf r v) s = .next t ∧ t.regs.get r = heldAfterWrite r v s.regs ∧ SameRun s t := by
  by_cases hr : r = .moder ∧ moderRst v = true
  · obtain ⟨rfl, hv⟩ := hr
    have held : heldAfterWrite .moder v s.regs = 0x0000A000 := (if_neg (by decide)).trans (if_pos ⟨rfl, hv⟩)
    refine ⟨resetState s, exec_wrModer_of_reset v s hv hf, ?_, sameRun_resetState s⟩
    rw [held, resetState_regs]
    rfl
  · have h : r = .moder → moderRst v = false := by simpa using hr
    obtain ⟨t, ht, hregs, hsame⟩ := exec_writeOf_of_no_reset r v s h
    refine ⟨t, ht, ?_, hsame⟩
    rw [hregs, RegFile.get_set_same, storedByWrite_eq_heldAfterWrite s.regs h]

/-! ### Steps of the machine at the register port -/

theorem step_port_write {s : State} {r : Reg} {v : Word} {rest : List Slot} (hs : Running s)
    (h : s.sched = .port .write (offsetOf r) v :: rest) :
    step s = exec (writeOf r v) { s with sched := rest } := by
  rw [← decodeWrite_offsetOf s.cfg]
  exact step_of_run (fetch_of_slot hs.1 hs.2 h)

theorem step_port_read {s : State} {r : Reg} {w : Word} {rest : List Slot} (hs : Running s)
    (h : s.sched = .port .read (offsetOf r) w :: rest) :
    step s = .next (respond (s.regs.get r) { s with sched := rest }) := by
  rw [← exec_readOf r { s with sched := rest }, ← decodeRead_offsetOf s.cfg]
  exact step_of_run (fetch_of_slot hs.1 hs.2 h)

/-- A write and then a read of one register, as two steps of the machine (R33). -/
theorem step_write_then_read {r : Reg} {v w : Word} {s : State} {rest : List Slot} (hs : Running s)
    (hf : ¬ (s.cfg.backend = .socket ∧ s.cfg.socketSetupFatal = true))
    (h : s.sched = .port .write (offsetOf r) v :: .port .read (offsetOf r) w :: rest) :
    ∃ t u, step s = .next t ∧ step t = .next u ∧ u.busOut = s.busOut ++ [heldAfterWrite r v s.regs] := by
  obtain ⟨t, ht, hget, hsame⟩ :=
    exec_writeOf_holds r v { s with sched := .port .read (offsetOf r) w :: rest } hf
  have hrun : Running t := ⟨hsame.stop.trans hs.1, hsame.fault.trans hs.2⟩
  refine ⟨t, _, (step_port_write hs h).trans ht, step_port_read hrun hsame.sched, ?_⟩
  rw [respond_busOut, hget, hsame.busOut]

/-! ### Every operation's effect on the registers -/

theorem exec_txStep_regs {i : Instr} {s t : State} (hi : IsTxStep i) (h : exec i s = .next t) :
    AtMostRaised s.regs t.regs := by
  obtain rfl | rfl | rfl | rfl := hi
  · obtain rfl := Host.Outcome.next.inj h
    exact .inl rfl
  · obtain ⟨w0, w1, -, -, rfl⟩ := execTxWaitBd_next h
    exact .inl (txSnapshot_regs w0 w1 s)
  · obtain rfl | ⟨-, -, rfl⟩ | ⟨-, rfl⟩ := execTxReadFifo_next h <;> exact .inl rfl
  · obtain ⟨-, rfl⟩ := execTxTransmit_next h
    exact txComplete_regs s

theorem exec_rxStep_regs {i : Instr} {s t : State} (hi : IsRxStep i) (h : exec i s = .next t) :
    AtMostRaised s.regs t.regs := by
  obtain rfl | rfl | rfl | rfl | rfl := hi
  · obtain rfl := Host.Outcome.next.inj h
    exact .inl rfl
  · obtain ⟨w0, w1, -, -, rfl⟩ := execRxWaitBd_next h
    exact rxSnapshot_regs w0 w1 s
  · obtain ⟨n, rfl | rfl | rfl | ⟨p, -, rfl⟩⟩ := execRxRecvFile_next h <;> exact .inl (by simp)
  · obtain rfl | ⟨f, q, -, rfl | rfl | ⟨-, -, rfl⟩⟩ := execRxRecvSocket_next h <;> exact .inl rfl
  · obtain rfl | ⟨-, -, ⟨-, rfl⟩ | ⟨-, -, rfl⟩⟩ := execRxWriteFifo_next h
    · exact .inl rfl
    · exact .inl rfl
    · exact completeRx_regs (rxStore s)

/-- What an operation other than a device reset can do to the registers: a write sets its own, an engine's step
raises at most one bit of INT_SOURCE, and every other operation leaves all of them (R33, R35). -/
theorem exec_regs_cases {i : Instr} {s t : State} (h : exec i s = .next t)
    (hrst : ∀ v, i = .wrModer v → moderRst v = false) :
    t.regs = s.regs ∨ (∃ q v w, i = writeOf q v ∧ t.regs = s.regs.set q w) ∨
      ((IsTxStep i ∨ IsRxStep i) ∧ AtMostRaised s.regs t.regs) := by
  cases kind i with
  | read r =>
    obtain rfl := Host.Outcome.next.inj ((exec_readOf r s).symm.trans h)
    exact .inl rfl
  | write r v =>
    obtain ⟨u, hu, hregs, -⟩ := exec_writeOf_of_no_reset r v s (by rintro rfl; exact hrst v rfl)
    obtain rfl := Host.Outcome.next.inj (hu.symm.trans h)
    exact .inr (.inl ⟨r, v, _, rfl, hregs⟩)
  | rdBd k =>
    obtain ⟨w, -, rfl⟩ := execRdBd_next h
    exact .inl rfl
  | wrBd k v =>
    obtain ⟨-, rfl⟩ := execWrBd_next h
    exact .inl rfl
  | rdUnmapped off =>
    obtain rfl := Host.Outcome.next.inj h
    exact .inl rfl
  | wrUnmapped off v =>
    obtain rfl := Host.Outcome.next.inj h
    exact .inl rfl
  | tx hi => exact .inr (.inr ⟨.inl hi, exec_txStep_regs hi h⟩)
  | rx hi => exact .inr (.inr ⟨.inr hi, exec_rxStep_regs hi h⟩)

/-- A register keeps its value over every operation but its own write and a device reset; for INT_SOURCE, over
every operation but those and an engine's step (R33, R35). -/
theorem exec_keeps_register {i : Instr} {s t : State} {r : Reg} (h : exec i s = .next t)
    (hw : ∀ v, i ≠ writeOf r v) (hrst : ∀ v, i = .wrModer v → moderRst v = false)
    (hr : r ≠ .intSource ∨ ¬ IsTxStep i ∧ ¬ IsRxStep i) : t.regs.get r = s.regs.get r := by
  obtain hregs | ⟨q, v, w, rfl, hregs⟩ | ⟨hi, hraised⟩ := exec_regs_cases h hrst
  · rw [hregs]
  · have hne : r ≠ q := by rintro rfl; exact hw v rfl
    rw [hregs, RegFile.get_set_other _ _ hne]
  · have hne : r ≠ .intSource := hr.resolve_right fun ⟨htx, hrx⟩ => hi.elim htx hrx
    rw [hraised.set_intSource, RegFile.get_set_other _ _ hne]

/-- Settles O7: the two steps are a write and a read at the port, and the registers an operation changes are those
of `exec_regs_cases`. -/
theorem registersHoldTheValueLastWritten : Obligations.RegistersHoldTheValueLastWritten := by
  unfold Obligations.RegistersHoldTheValueLastWritten
  refine ⟨fun r v w s rest hs hf h => step_write_then_read hs hf h, fun i s t r h hw hrst => ⟨?_, ?_⟩⟩
  · exact fun hr => exec_keeps_register h hw hrst (.inl hr)
  · exact fun htx hrx => exec_keeps_register h hw hrst (.inr ⟨htx, hrx⟩)

end Sys2Proof.Claims

/-! SUPPORT. Which offsets are a register's, which lie in the descriptor window, and the obligation that an offset
decodes in the order of priority of R143. -/

namespace Sys2Proof

theorem Config.inBdWindow_iff (cfg : Config) (n : Nat) :
    cfg.inBdWindow n = true ↔ cfg.bdBase ≤ n ∧ n + 4 ≤ cfg.bdBase + 4 * cfg.ringWords := by
  simp [Config.inBdWindow]

theorem Config.bdIndexOf_eq_shiftRight (cfg : Config) (n : Nat) : cfg.bdIndexOf n = (n - cfg.bdBase) >>> 2 :=
  (Nat.shiftRight_eq_div_pow (n - cfg.bdBase) 2).symm

end Sys2Proof

namespace Sys2Proof.Claims

open Sys2Proof.Machine

/-- The twenty registers stand at consecutive words from offset 0, in the order of `Reg` (R32). -/
theorem offsetOf_ofNat : ∀ k < 20, offsetOf (Reg.ofNat k) = BitVec.ofNat 16 (4 * k) := by decide

/-- An aligned offset that is no register's lies above all of them: the registers leave no gap. -/
theorem above_registers_of_ne_offsetOf {off : BitVec 16} (aligned : off.toNat % 4 = 0)
    (hne : ∀ r, off ≠ offsetOf r) : 0x50 ≤ off.toNat := by
  by_contra hlt
  have hword : off = BitVec.ofNat 16 (4 * (off.toNat / 4)) := by
    rw [Nat.mul_div_cancel' (Nat.dvd_of_mod_eq_zero aligned), BitVec.ofNat_toNat, BitVec.setWidth_eq]
  exact hne _ (hword.trans (offsetOf_ofNat (off.toNat / 4) (by omega)).symm)

/-- Case 3 of R143. -/
theorem decode_in_descriptor_window {cfg : Config} {off : BitVec 16} (v : Word) (aligned : off.toNat % 4 = 0)
    (above : 0x50 ≤ off.toNat) (hw : cfg.inBdWindow off.toNat = true) :
    decodeRead cfg off = .rdBd (cfg.bdIndexOf off.toNat) ∧
      decodeWrite cfg off v = .wrBd (cfg.bdIndexOf off.toNat) v := by
  rw [decodeRead_above_registers above, decodeWrite_above_registers above]
  exact ⟨if_pos ⟨aligned, hw⟩, if_pos ⟨aligned, hw⟩⟩

/-- Case 4 of R143. -/
theorem decode_outside_descriptor_window {cfg : Config} {off : BitVec 16} (v : Word) (above : 0x50 ≤ off.toNat)
    (hw : ¬ cfg.inBdWindow off.toNat = true) :
    decodeRead cfg off = .rdUnmapped off ∧ decodeWrite cfg off v = .wrUnmapped off v := by
  rw [decodeRead_above_registers above, decodeWrite_above_registers above]
  exact ⟨if_neg fun h => hw h.2, if_neg fun h => hw h.2⟩

/-- Settles O3: an aligned offset of no register is above the registers, where only the descriptor window is left. -/
theorem offsetsDecodeInOrderOfPriority : Obligations.OffsetsDecodeInOrderOfPriority := by
  unfold Obligations.OffsetsDecodeInOrderOfPriority
  intro cfg off v
  refine ⟨fun misaligned => ?_, ?_, fun aligned hne => ?_⟩
  · exact ⟨decodeRead_of_misaligned misaligned, decodeWrite_of_misaligned misaligned⟩
  · rintro r rfl
    exact ⟨decodeRead_offsetOf cfg r, decodeWrite_offsetOf cfg r v⟩
  · have above : 0x50 ≤ off.toNat := above_registers_of_ne_offsetOf aligned hne
    rw [← cfg.inBdWindow_iff, ← cfg.bdIndexOf_eq_shiftRight]
    exact ⟨decode_in_descriptor_window v aligned above, decode_outside_descriptor_window v above⟩

end Sys2Proof.Claims

/-! SUPPORT. What a write to INT_SOURCE or TX_BD_NUM and an access that decodes to nothing do, when a WAIT_BD step
of the receive engine completes, and the obligations about the three accesses (R182, R183, R188, R202). -/

namespace Sys2Proof

theorem Config.unmapped_iff (cfg : Config) (n : Nat) :
    cfg.unmapped n = true ↔ n % 4 ≠ 0 ∨ (0x50 ≤ n ∧ ¬ cfg.inBdWindow n = true) := by
  simp [Config.unmapped]

end Sys2Proof

namespace Sys2Proof.Machine

/-! ### The line after a write to INT_SOURCE -/

theorem irqAfterClear_of_last_cleared {old new : Word} (irq : Bool) (h : old ≠ 0 ∧ new = 0) :
    irqAfterClear old new irq = false := if_pos h

theorem irqAfterClear_of_not_last_cleared {old new : Word} (irq : Bool) (h : ¬ (old ≠ 0 ∧ new = 0)) :
    irqAfterClear old new irq = irq := if_neg h

/-! ### The ring pointer after a write to TX_BD_NUM -/

theorem toNat_two_mul (v : Word) : (2 * v).toNat = 2 * v.toNat % 2 ^ 32 := BitVec.toNat_mul 2 v

/-- The pointer is even, so that the index of its word 1 does not wrap around. -/
theorem toNat_two_mul_add_one (v : Word) : (2 * v + 1).toNat = 2 * v.toNat % 2 ^ 32 + 1 := by
  bv_omega

/-! ### The WAIT_BD step of the receive engine -/

theorem execRxWaitBd_of_error {s : State} {f : DevFault} (h : bdReadPair .rx s.rx.idx s = .error f) :
    exec .rxWaitBd s = .fault (.raised f) := by
  rw [exec_rxWaitBd, execRxWaitBd, h]
  rfl

theorem execRxWaitBd_of_ok {s : State} {w0 w1 : Word} (h : bdReadPair .rx s.rx.idx s = .ok (w0, w1)) :
    exec .rxWaitBd s = .next (rxSnapshot w0 w1 s) := by
  rw [exec_rxWaitBd, execRxWaitBd, h]

theorem execRxWaitBd_word0_outside {s : State} (h : s.bd.length ≤ s.rx.idx.toNat) :
    exec .rxWaitBd s = .fault (.raised (.bdIndexOutOfRange .rx s.rx.idx.toNat)) :=
  execRxWaitBd_of_error (bdReadPair_error.2 (.inl ⟨h, rfl⟩))

theorem execRxWaitBd_word1_outside {s : State} (h0 : s.rx.idx.toNat < s.bd.length)
    (h1 : s.bd.length ≤ (s.rx.idx + 1).toNat) :
    exec .rxWaitBd s = .fault (.raised (.bdIndexOutOfRange .rx (s.rx.idx + 1).toNat)) :=
  execRxWaitBd_of_error (bdReadPair_error.2 (.inr ⟨h0, h1, rfl⟩))

theorem execRxWaitBd_inside {s : State} (h0 : s.rx.idx.toNat < s.bd.length)
    (h1 : (s.rx.idx + 1).toNat < s.bd.length) : ∃ t, exec .rxWaitBd s = .next t :=
  ⟨_, execRxWaitBd_of_ok (bdReadPair_ok.2 ⟨List.getElem?_eq_getElem h0, List.getElem?_eq_getElem h1⟩)⟩

/-- A WAIT_BD step of the receive engine at the pointer that a write of `v` to TX_BD_NUM left (R202, R302): in a ring
of `n` words it completes where both words of the descriptor lie inside, and faults on the first that does not. -/
theorem execRxWaitBd_at_two_mul {t : State} {v : Word} {n : Nat} (hidx : t.rx.idx = 2 * v)
    (hlen : t.bd.length = n) :
    (n ≤ 2 * v.toNat % 2 ^ 32 →
      exec .rxWaitBd t = .fault (.raised (.bdIndexOutOfRange .rx (2 * v.toNat % 2 ^ 32)))) ∧
    (2 * v.toNat % 2 ^ 32 + 1 = n → exec .rxWaitBd t = .fault (.raised (.bdIndexOutOfRange .rx n))) ∧
    (2 * v.toNat % 2 ^ 32 + 1 < n → ∃ u, exec .rxWaitBd t = .next u) := by
  have hword0 : t.rx.idx.toNat = 2 * v.toNat % 2 ^ 32 := by rw [hidx, toNat_two_mul]
  have hword1 : (t.rx.idx + 1).toNat = 2 * v.toNat % 2 ^ 32 + 1 := by rw [hidx, toNat_two_mul_add_one]
  refine ⟨fun houtside => ?_, fun hlast => ?_, fun hinside => ?_⟩
  · rw [← hword0]
    exact execRxWaitBd_word0_outside (by omega)
  · rw [← hlast, ← hword1]
    exact execRxWaitBd_word1_outside (by omega) (by omega)
  · exact execRxWaitBd_inside (by omega) (by omega)

end Sys2Proof.Machine

namespace Sys2Proof.Claims

open Sys2Proof.Machine

/-- Settles O10: the write stores `writeOneToClear`, known bit by bit, and `irqAfterClear`, known in both cases. -/
theorem intSourceWriteClearsWrittenBits : Obligations.IntSourceWriteClearsWrittenBits := by
  unfold Obligations.IntSourceWriteClearsWrittenBits
  intro v s
  refine ⟨decodeWrite_offsetOf s.cfg .intSource v, _, exec_wrIntSource v s, ?_, ?_, ?_, ?_, rfl⟩
  · exact getLsbD_writeOneToClear s.regs.intSource v
  · exact irqAfterClear_of_last_cleared s.irq
  · exact irqAfterClear_of_not_last_cleared s.irq
  · exact fun q hq => s.regs.get_set_other (writeOneToClear s.regs.intSource v) hq

/-- Settles O11: the pointer stored is `2 * v`, even, and the next WAIT_BD step is `execRxWaitBd_at_two_mul`. -/
theorem txBdNumWriteMovesTheRxPointer : Obligations.TxBdNumWriteMovesTheRxPointer := by
  unfold Obligations.TxBdNumWriteMovesTheRxPointer
  intro v s
  refine ⟨decodeWrite_offsetOf s.cfg .txBdNum v, _, exec_wrTxBdNum v s, rfl, ?_, ?_, rfl, ?_⟩
  · exact fun q hq => s.regs.get_set_other v hq
  · exact toNat_two_mul v
  · exact fun hlen => execRxWaitBd_at_two_mul rfl hlen

/-- Cases 1 and 4 of R143. -/
theorem decode_of_unmapped {cfg : Config} {off : BitVec 16} (v : Word) (h : cfg.unmapped off.toNat = true) :
    decodeRead cfg off = .rdUnmapped off ∧ decodeWrite cfg off v = .wrUnmapped off v := by
  obtain misaligned | ⟨above, outside⟩ := (cfg.unmapped_iff off.toNat).1 h
  · exact ⟨decodeRead_of_misaligned misaligned, decodeWrite_of_misaligned misaligned⟩
  · exact decode_outside_descriptor_window v above outside

/-- Settles O13: an unmapped offset is misaligned, or above the registers and outside the descriptor window, and the
two accesses only append to the answers and the history. -/
theorem unmappedAccessIsReportedOnly : Obligations.UnmappedAccessIsReportedOnly := by
  unfold Obligations.UnmappedAccessIsReportedOnly
  intro off v s
  refine ⟨decode_of_unmapped v, ?_, ?_⟩
  · exact ⟨_, exec_rdUnmapped off s, rfl, rfl, rfl⟩
  · exact ⟨_, exec_wrUnmapped off v s, rfl, rfl⟩

end Sys2Proof.Claims

/-! SUPPORT. The wrap of the TX pointer, what an engine's step does where the other engine's working state is replaced,
and the obligations about the transmit engine (R261, R268, R272, R301). -/

namespace Sys2Proof.Machine

/-! ### The TX pointer -/

theorem nextTx_of_wrap {cfg : Config} {idx : Word} {wr : Bool} (h : wr = true ∨ cfg.wrapLimit ≤ idx.toNat) :
    nextTx cfg idx wr = 0 := if_pos h

theorem nextTx_of_no_wrap {cfg : Config} {idx : Word} {wr : Bool} (h : ¬ (wr = true ∨ cfg.wrapLimit ≤ idx.toNat)) :
    nextTx cfg idx wr = idx + 2 := if_neg h

theorem toNat_nextTx_of_no_wrap {cfg : Config} {idx : Word} {wr : Bool}
    (h : ¬ (wr = true ∨ cfg.wrapLimit ≤ idx.toNat)) : (nextTx cfg idx wr).toNat = (idx.toNat + 2) % 2 ^ 32 := by
  rw [nextTx_of_no_wrap h]
  exact BitVec.toNat_add idx 2

/-- In the default ring an even pointer below the threshold is at least two words below it. -/
theorem nextTx_in_default_ring {cfg : Config} {idx : Word} (wr : Bool) (ring : cfg.defaultRing)
    (even : idx.toNat % 2 = 0) (inside : idx.toNat + 1 < cfg.ringWords) :
    (nextTx cfg idx wr).toNat % 2 = 0 ∧ (nextTx cfg idx wr).toNat ≤ cfg.ringWords - 2 := by
  obtain ⟨-, ringEven, ringBound, limit⟩ := ring
  by_cases h : wr = true ∨ cfg.wrapLimit ≤ idx.toNat
  · rw [nextTx_of_wrap h]
    exact ⟨rfl, Nat.zero_le _⟩
  · have below : idx.toNat < cfg.ringWords - 2 := by
      rw [← limit]
      exact Nat.lt_of_not_le fun reached => h (.inr reached)
    rw [toNat_nextTx_of_no_wrap h]
    omega

/-! ### Another working state in its place -/

/-- The state with the RX working state replaced. -/
def State.withRx (rx : RxWork) (s : State) : State := { s with rx := rx }

@[simp] theorem State.withRx_cfg (rx : RxWork) (s : State) : (s.withRx rx).cfg = s.cfg := rfl
@[simp] theorem State.withRx_bd (rx : RxWork) (s : State) : (s.withRx rx).bd = s.bd := rfl
@[simp] theorem State.withRx_tx (rx : RxWork) (s : State) : (s.withRx rx).tx = s.tx := rfl
@[simp] theorem State.withRx_rx (rx : RxWork) (s : State) : (s.withRx rx).rx = rx := rfl

/-- The state with the TX working state replaced. -/
def State.withTx (tx : TxWork) (s : State) : State := { s with tx := tx }

@[simp] theorem State.withTx_cfg (tx : TxWork) (s : State) : (s.withTx tx).cfg = s.cfg := rfl
@[simp] theorem State.withTx_regs (tx : TxWork) (s : State) : (s.withTx tx).regs = s.regs := rfl
@[simp] theorem State.withTx_bd (tx : TxWork) (s : State) : (s.withTx tx).bd = s.bd := rfl
@[simp] theorem State.withTx_tx (tx : TxWork) (s : State) : (s.withTx tx).tx = tx := rfl
@[simp] theorem State.withTx_rx (tx : TxWork) (s : State) : (s.withTx tx).rx = s.rx := rfl
@[simp] theorem State.withTx_sockq (tx : TxWork) (s : State) : (s.withTx tx).sockq = s.sockq := rfl

/-- An outcome with its next state, where it has one, changed by `g`. -/
def carry (g : State → State) : Result → Result
  | .next t => .next (g t)
  | .fault f => .fault f
  | .refused r => .refused r

theorem carry_next (g : State → State) (t : State) : carry g (.next t) = .next (g t) := rfl

/-! ### Operations of both engines -/

/-- Both descriptor words come from the descriptor RAM alone. -/
theorem bdReadPair_congr {agent : Agent} {idx : Word} {s t : State} (h : t.bd = s.bd) :
    bdReadPair agent idx t = bdReadPair agent idx s := by
  unfold bdReadPair bdRead
  rw [h]

/-- A DMA step asks the state for nothing but the parameters. -/
theorem dmaStep_carry {g : State → State} (hg : ∀ s, (g s).cfg = s.cfg) (agent : Agent) (a : Word) (s : State)
    (go : Result) : dmaStep agent a (g s) (carry g go) = carry g (dmaStep agent a s go) := by
  unfold dmaStep
  rw [hg]
  split
  · rfl
  · split <;> rfl

/-- The line and the history after `assertIrqIf`, as one update. -/
theorem assertIrqIf_eq (c : Bool) (s : State) :
    assertIrqIf c s =
      { s with irq := c || s.irq, history := if c = true then s.history ++ [.irqAssert] else s.history } := by
  cases c <;> rfl

/-! ### The TX engine's operations, with another RX working state -/

theorem txLog_withRx (n : Nat) (rx : RxWork) (s : State) : txLog n (s.withRx rx) = (txLog n s).withRx rx := by
  exact Eq.symm (apply_ite (State.withRx rx) _ _ _)

theorem txSend_withRx (p : Frame) (rx : RxWork) (s : State) :
    txSend p (s.withRx rx) = ((txSend p s).1, (txSend p s).2.withRx rx) := by
  have accepted : sendAccepted (s.withRx rx) = sendAccepted s := rfl
  simp only [txSend, accepted, State.withRx_cfg]
  cases sendAccepted s with
  | false => rfl
  | true => cases s.cfg.backend <;> rfl

theorem txSnapshot_withRx (w0 w1 : Word) (rx : RxWork) (s : State) :
    txSnapshot w0 w1 (s.withRx rx) = (txSnapshot w0 w1 s).withRx rx := by
  unfold txSnapshot
  split
  · exact txLog_withRx _ rx { s with tx := txTake w0 w1 s }
  · rfl

theorem txComplete_withRx (rx : RxWork) (s : State) : txComplete (s.withRx rx) = (txComplete s).withRx rx := by
  have frame : txFrame (s.withRx rx) = txFrame s := rfl
  simp only [txComplete, frame, txSend_withRx, assertIrqIf_eq]
  rfl

theorem execTxWaitBd_withRx (rx : RxWork) (s : State) :
    execTxWaitBd (s.withRx rx) = carry (State.withRx rx) (execTxWaitBd s) := by
  unfold execTxWaitBd
  rw [State.withRx_tx, bdReadPair_congr (s.withRx_bd rx)]
  cases bdReadPair .tx s.tx.idx s with
  | error f => rfl
  | ok w => exact congrArg Host.Outcome.next (txSnapshot_withRx w.1 w.2 rx s)

theorem execTxReadFifo_of_unstaged {s : State} (h : s.tx.sent < s.tx.len.toNat) :
    execTxReadFifo s = dmaStep .tx (txDmaAddr s) s (.next (txStage s)) := if_pos h

theorem execTxReadFifo_of_staged {s : State} (h : ¬ s.tx.sent < s.tx.len.toNat) :
    execTxReadFifo s = .next { s with tx := { s.tx with state := .transmit } } := if_neg h

theorem execTxReadFifo_withRx (rx : RxWork) (s : State) :
    execTxReadFifo (s.withRx rx) = carry (State.withRx rx) (execTxReadFifo s) := by
  by_cases h : s.tx.sent < s.tx.len.toNat
  · rw [execTxReadFifo_of_unstaged h, execTxReadFifo_of_unstaged (s := s.withRx rx) h]
    exact dmaStep_carry (State.withRx_cfg rx) .tx (txDmaAddr s) s (.next (txStage s))
  · rw [execTxReadFifo_of_staged h, execTxReadFifo_of_staged (s := s.withRx rx) h]
    rfl

theorem execTxTransmit_withRx (rx : RxWork) (s : State) :
    execTxTransmit (s.withRx rx) = carry (State.withRx rx) (execTxTransmit s) := by
  simp only [execTxTransmit, State.withRx_tx, State.withRx_bd, txComplete_withRx]
  split <;> rfl

/-! ### The RX engine's operations, with another TX working state -/

theorem advanceCursor_withTx (src : RxSource) (n : Nat) (tx : TxWork) (s : State) :
    advanceCursor src n (s.withTx tx) = (advanceCursor src n s).withTx tx := by
  cases src <;> rfl

theorem sourceBytes_withTx (src : RxSource) (tx : TxWork) (s : State) :
    sourceBytes src (s.withTx tx) = sourceBytes src s := by
  cases src <;> rfl

theorem sourceCursor_withTx (src : RxSource) (tx : TxWork) (s : State) :
    sourceCursor src (s.withTx tx) = sourceCursor src s := by
  cases src <;> rfl

theorem rxFileReadLen_withTx (src : RxSource) (tx : TxWork) (s : State) :
    rxFileReadLen src (s.withTx tx) = ((rxFileReadLen src s).1, (rxFileReadLen src s).2.withTx tx) := by
  simp only [rxFileReadLen, sourceBytes_withTx, sourceCursor_withTx, State.withTx_cfg, advanceCursor_withTx]

theorem rxFileRead_withTx (src : RxSource) (n : Nat) (tx : TxWork) (s : State) :
    rxFileRead src n (s.withTx tx) = ((rxFileRead src n s).1, (rxFileRead src n s).2.withTx tx) := by
  simp only [rxFileRead, sourceBytes_withTx, sourceCursor_withTx, advanceCursor_withTx]

theorem sockRecv_withTx (tx : TxWork) (s : State) :
    sockRecv (s.withTx tx) = ((sockRecv s).1, (sockRecv s).2.withTx tx) := by
  simp only [sockRecv, State.withTx_sockq]
  cases s.sockq <;> rfl

theorem rxBusy_withTx (tx : TxWork) (s : State) : rxBusy (s.withTx tx) = (rxBusy s).withTx tx := by
  simp only [rxBusy, sockProbe, State.withTx_cfg, State.withTx_sockq, assertIrqIf_eq]
  cases s.cfg.backend with
  | file => rfl
  | socket => cases s.sockq <;> rfl

theorem rxSnapshot_withTx (w0 w1 : Word) (tx : TxWork) (s : State) :
    rxSnapshot w0 w1 (s.withTx tx) = (rxSnapshot w0 w1 s).withTx tx := by
  have active : (s.withTx tx).rxActive = s.rxActive := rfl
  unfold rxSnapshot
  rw [active]
  split
  · rfl
  · split
    · rfl
    · exact rxBusy_withTx tx { s with rx := { s.rx with bd := w0, buf := w1 } }

theorem completeRx_withTx (tx : TxWork) (s : State) : completeRx (s.withTx tx) = (completeRx s).withTx tx := by
  simp only [completeRx, assertIrqIf_eq]
  rfl

theorem execRxWaitBd_withTx (tx : TxWork) (s : State) :
    execRxWaitBd (s.withTx tx) = carry (State.withTx tx) (execRxWaitBd s) := by
  unfold execRxWaitBd
  rw [State.withTx_rx, bdReadPair_congr (s.withTx_bd tx)]
  cases bdReadPair .rx s.rx.idx s with
  | error f => rfl
  | ok w => exact congrArg Host.Outcome.next (rxSnapshot_withTx w.1 w.2 tx s)

theorem execRxRecvFile_withTx (tx : TxWork) (s : State) :
    execRxRecvFile (s.withTx tx) = carry (State.withTx tx) (execRxRecvFile s) := by
  simp only [execRxRecvFile, State.withTx_rx, State.withTx_cfg, rxFileReadLen_withTx]
  obtain ⟨len, s1⟩ := rxFileReadLen s.rx.src s
  cases len with
  | none => rfl
  | some n =>
    simp only [rxFileSkip, advanceCursor_withTx, rxFileRead_withTx]
    split
    · rfl
    · split
      · rfl
      · split <;> rfl

theorem execRxRecvSocket_withTx (tx : TxWork) (s : State) :
    execRxRecvSocket (s.withTx tx) = carry (State.withTx tx) (execRxRecvSocket s) := by
  simp only [execRxRecvSocket, State.withTx_cfg, sockRecv_withTx]
  obtain ⟨frame, s1⟩ := sockRecv s
  cases frame with
  | none => rfl
  | some f =>
    have accepts : rxAccepts f (s1.withTx tx) = rxAccepts f s1 := rfl
    simp only [accepts]
    split
    · rfl
    · split <;> rfl

theorem execRxWriteFifo_withTx (tx : TxWork) (s : State) :
    execRxWriteFifo (s.withTx tx) = carry (State.withTx tx) (execRxWriteFifo s) := by
  have lastWord : rxLastWord (s.withTx tx) = rxLastWord s := rfl
  have store : rxStore (s.withTx tx) = (rxStore s).withTx tx := rfl
  unfold execRxWriteFifo
  rw [← dmaStep_carry (State.withTx_cfg tx)]
  congr 1
  rw [lastWord, store, completeRx_withTx, State.withTx_rx, State.withTx_bd]
  split
  · split <;> rfl
  · rfl

end Sys2Proof.Machine

namespace Sys2Proof.Claims

open Sys2Proof.Machine

/-! ### Every step of an engine, with another working state of the other engine -/

theorem exec_txStep_withRx {i : Instr} (hi : IsTxStep i) (rx : RxWork) (s : State) :
    exec i (s.withRx rx) = carry (State.withRx rx) (exec i s) := by
  obtain rfl | rfl | rfl | rfl := hi
  · rfl
  · exact execTxWaitBd_withRx rx s
  · exact execTxReadFifo_withRx rx s
  · exact execTxTransmit_withRx rx s

theorem exec_rxStep_withTx {i : Instr} (hi : IsRxStep i) (tx : TxWork) (s : State) :
    exec i (s.withTx tx) = carry (State.withTx tx) (exec i s) := by
  obtain rfl | rfl | rfl | rfl | rfl := hi
  · rfl
  · exact execRxWaitBd_withTx tx s
  · exact execRxRecvFile_withTx tx s
  · exact execRxRecvSocket_withTx tx s
  · exact execRxWriteFifo_withTx tx s

/-- Replacing the RX working state by itself changes nothing, and after the step it is the one put there. -/
theorem exec_txStep_keeps_rx {i : Instr} {s t : State} (hi : IsTxStep i) (h : exec i s = .next t) : t.rx = s.rx := by
  have carried : exec i s = carry (State.withRx s.rx) (exec i s) := exec_txStep_withRx hi s.rx s
  rw [h, carry_next] at carried
  rw [Host.Outcome.next.inj carried, State.withRx_rx]

/-- Replacing the TX working state by itself changes nothing, and after the step it is the one put there. -/
theorem exec_rxStep_keeps_tx {i : Instr} {s t : State} (hi : IsRxStep i) (h : exec i s = .next t) : t.tx = s.tx := by
  have carried : exec i s = carry (State.withTx s.tx) (exec i s) := exec_rxStep_withTx hi s.tx s
  rw [h, carry_next] at carried
  rw [Host.Outcome.next.inj carried, State.withTx_tx]

/-- Settles O48: a step run with the other working state replaced answers what it answered, with the replacement
carried along; so it keeps the one it found. -/
theorem enginesIgnoreEachOthersWorkingState : Obligations.EnginesIgnoreEachOthersWorkingState := by
  unfold Obligations.EnginesIgnoreEachOthersWorkingState
  intro i s
  refine ⟨fun hi rx => ?_, fun hi tx => ?_⟩
  · have carried := exec_txStep_withRx hi rx s
    cases h : exec i s with
    | next t => exact ⟨exec_txStep_keeps_rx hi h, carried.trans (congrArg _ h)⟩
    | fault _ | refused _ => exact carried.trans (congrArg _ h)
  · have carried := exec_rxStep_withTx hi tx s
    cases h : exec i s with
    | next t => exact ⟨exec_rxStep_keeps_tx hi h, carried.trans (congrArg _ h)⟩
    | fault _ | refused _ => exact carried.trans (congrArg _ h)

/-- Settles O14: each IDLE step is one update of its engine's state. -/
theorem idleStepsAdvanceToWaitBd : Obligations.IdleStepsAdvanceToWaitBd := by
  unfold Obligations.IdleStepsAdvanceToWaitBd
  intro s
  refine ⟨rfl, rfl, ?_, ?_⟩
  · exact ⟨_, exec_txIdle s, rfl, rfl⟩
  · exact ⟨_, exec_rxIdle s, rfl, rfl⟩

/-- Settles O22: `nextTx` in its two cases, and its range in the default ring. -/
theorem nextTxWrapsToWordZero : Obligations.NextTxWrapsToWordZero := by
  unfold Obligations.NextTxWrapsToWordZero
  intro cfg idx wr
  exact ⟨nextTx_of_wrap, toNat_nextTx_of_no_wrap, nextTx_in_default_ring wr⟩

end Sys2Proof.Claims

/-! SUPPORT. The wrap of the RX pointer, the step that completes a frame, and the obligation that the pointer wraps to
twice the current TX_BD_NUM (R308, R310, R311). -/

namespace Sys2Proof.Machine

/-! ### The RX pointer -/

theorem toNat_nextRx_of_wrap {cfg : Config} {txBdNum idx : Word} {wr : Bool}
    (h : wr = true ∨ cfg.wrapLimit ≤ idx.toNat) :
    (nextRx cfg txBdNum idx wr).toNat = 2 * txBdNum.toNat % 2 ^ 32 := by
  rw [nextRx, if_pos h]
  exact BitVec.toNat_mul 2 txBdNum

theorem toNat_nextRx_of_no_wrap {cfg : Config} {txBdNum idx : Word} {wr : Bool}
    (h : ¬ (wr = true ∨ cfg.wrapLimit ≤ idx.toNat)) :
    (nextRx cfg txBdNum idx wr).toNat = (idx.toNat + 2) % 2 ^ 32 := by
  rw [nextRx, if_neg h]
  exact BitVec.toNat_add idx 2

/-! ### The completion of a frame -/

/-- The write-back changes LEN, RD, SF and TL; every other bit of word 0 stays (R310). -/
theorem getLsbD_rxWriteBack (s : State) {k : Nat} (hk : k < 15) (notShort : k ≠ 2) (notBig : k ≠ 3) :
    (rxWriteBack s).getLsbD k = s.rx.bd.getLsbD k := by
  have cleared : (clearReady (setBdLen s.rx.bd s.rx.len)).getLsbD k = s.rx.bd.getLsbD k := by
    rw [clearReady, getLsbD_clearBit, getLsbD_setBdLen _ _ (by omega)]
    simp [show 15 ≠ k by omega]
  have tooShort (w : Word) : (setTooShort w).getLsbD k = w.getLsbD k := by
    simp [setTooShort, getLsbD_setBit, notShort.symm]
  have tooBig (w : Word) : (setTooBig w).getLsbD k = w.getLsbD k := by
    simp [setTooBig, getLsbD_setBit, notBig.symm]
  simp only [rxWriteBack, apply_ite (fun w : Word => w.getLsbD k), tooBig, tooShort, cleared, ite_self]

theorem bdWrap_rxWriteBack (s : State) : bdWrap (rxWriteBack s) = s.rx.bd.getLsbD 13 :=
  getLsbD_rxWriteBack s (by decide) (by decide) (by decide)

/-- The pointer moves by the wrap bit of the descriptor taken, which the write-back leaves as it was. -/
theorem completeRx_idx (s : State) :
    (completeRx s).rx.idx = nextRx s.cfg s.regs.txBdNum s.rx.idx (s.rx.bd.getLsbD 13) := by
  simp [completeRx, bdWrap_rxWriteBack]

/-- The step that writes a frame's last word stores it and completes the frame (R308, R310). -/
theorem execRxWriteFifo_of_last {s : State} (aligned : aligned4 (rxDmaAddr s) = true)
    (admitted : admitsWord s.cfg (rxDmaAddr s) = true) (last : s.rx.len ≤ s.rx.done + 4)
    (inside : s.rx.idx.toNat < s.bd.length) : exec .rxWriteFifo s = .next (completeRx (rxStore s)) := by
  have lastWord : rxLastWord s = true := decide_eq_true last
  rw [exec_rxWriteFifo, execRxWriteFifo, dmaStep_admitted aligned admitted, if_pos lastWord, if_pos inside]

end Sys2Proof.Machine

namespace Sys2Proof.Claims

open Sys2Proof.Machine

/-- Settles O36: `nextRx` in its two cases, and the completing step, whose store leaves TX_BD_NUM, the pointer and the
wrap bit as they were. -/
theorem nextRxWrapsToTwiceTxBdNum : Obligations.NextRxWrapsToTwiceTxBdNum := by
  unfold Obligations.NextRxWrapsToTwiceTxBdNum
  intro cfg txBdNum idx wr
  refine ⟨toNat_nextRx_of_wrap, toNat_nextRx_of_no_wrap, fun s aligned admitted last inside => ?_⟩
  exact ⟨completeRx (rxStore s), execRxWriteFifo_of_last ((aligned4_iff _).2 aligned) admitted last inside,
    completeRx_idx (rxStore s)⟩

end Sys2Proof.Claims

/-! SUPPORT. The bytes a stream read takes and the cursor it moves, and the obligation that a read returns the bytes at
its own cursor and advances that cursor by as many (R353). -/

namespace Sys2Proof.Machine

/-! ### The bytes at a cursor -/

theorem takeAt_length (stream : List Byte) (c k : Nat) :
    (takeAt stream c k).length = min (c + k) stream.length - c := by
  rw [takeAt, List.length_take, List.length_drop]
  omega

theorem getElem?_takeAt {stream : List Byte} {c k j : Nat} (hj : j < (takeAt stream c k).length) :
    (takeAt stream c k)[j]? = stream[c + j]? := by
  have inCount : j < k := Nat.lt_of_lt_of_le hj (takeAt_length_le stream c k)
  rw [takeAt, List.getElem?_take_of_lt inCount, List.getElem?_drop]

theorem takeAt_of_length_le {stream : List Byte} {c : Nat} (k : Nat) (h : stream.length ≤ c) :
    takeAt stream c k = [] := by
  rw [takeAt, List.drop_of_length_le h, List.take_nil]

/-- A read is short only where the sequence ends before the count does. -/
theorem length_lt_of_takeAt_short {stream : List Byte} {c k : Nat} (short : (takeAt stream c k).length < k) :
    stream.length < c + k := by
  rw [takeAt_length] at short
  omega

/-! ### The cursors -/

@[simp] theorem sourceCursor_advanceCursor_same (src : RxSource) (n : Nat) (s : State) :
    sourceCursor src (advanceCursor src n s) = sourceCursor src s + n := by
  cases src <;> rfl

theorem sourceCursor_advanceCursor_of_ne {other src : RxSource} (h : other ≠ src) (n : Nat) (s : State) :
    sourceCursor other (advanceCursor src n s) = sourceCursor other s := by
  cases src <;> cases other
  case rxFile.rxFile | loopback.loopback => exact absurd rfl h
  case rxFile.loopback | loopback.rxFile => rfl

end Sys2Proof.Machine

namespace Sys2Proof.Claims

open Sys2Proof.Machine

/-- Settles O40: the four facts of `Take`, and the two reads, each of which moves its own source's cursor by the length
of what it took. -/
theorem streamReadTakesFromTheCursor : Obligations.StreamReadTakesFromTheCursor := by
  unfold Obligations.StreamReadTakesFromTheCursor
  constructor
  · intro stream c k
    exact ⟨takeAt_length stream c k, fun _ => getElem?_takeAt, takeAt_of_length_le k, length_lt_of_takeAt_short⟩
  · intro src n s
    refine ⟨rfl, sourceCursor_advanceCursor_same src _ s, ?_, fun other h => ?_⟩
    · rintro b rfl
      exact ⟨rfl, sourceCursor_advanceCursor_same src _ s⟩
    · exact ⟨sourceCursor_advanceCursor_of_ne h _ s, sourceCursor_advanceCursor_of_ne h _ s⟩

end Sys2Proof.Claims

/-! SUPPORT. What every operation does to the interrupt line, and the obligation that only an acknowledge of the last
set source bit and a device reset lower it (R407). -/

namespace Sys2Proof.Machine

/-! ### The line after a shared operation -/

@[simp] theorem assertIrqIf_irq (c : Bool) (s : State) : (assertIrqIf c s).irq = (c || s.irq) := by
  rw [assertIrqIf_eq]

@[simp] theorem writeModer_irq (v : Word) (s : State) : (writeModer v s).irq = s.irq := by
  obtain ⟨-, -, h⟩ | ⟨-, -, h⟩ | ⟨-, -, h⟩ | ⟨-, -, h⟩ := writeModer_cases v s <;> rw [h] <;> rfl

@[simp] theorem rxStore_irq (s : State) : (rxStore s).irq = s.irq := rfl

@[simp] theorem rxCapture_irq (p : Frame) (s : State) : (rxCapture p s).irq = s.irq := rfl

@[simp] theorem txSnapshot_irq (w0 w1 : Word) (s : State) : (txSnapshot w0 w1 s).irq = s.irq := by
  unfold txSnapshot
  split
  · exact txLog_irq _ _
  · rfl

theorem txComplete_irq_of_raised {s : State} (raised : s.irq = true) : (txComplete s).irq = true := by
  simp [txComplete, raised]

theorem completeRx_irq_of_raised {s : State} (raised : s.irq = true) : (completeRx s).irq = true := by
  simp [completeRx, raised]

theorem rxBusy_irq_of_raised {s : State} (raised : s.irq = true) : (rxBusy s).irq = true := by
  unfold rxBusy
  cases s.cfg.backend with
  | file => exact raised
  | socket =>
    unfold sockProbe
    cases s.sockq with
    | nil => exact raised
    | cons f q => simp [raised]

theorem rxSnapshot_irq_of_raised {w0 w1 : Word} {s : State} (raised : s.irq = true) :
    (rxSnapshot w0 w1 s).irq = true := by
  unfold rxSnapshot
  split
  · exact raised
  · split
    · exact raised
    · exact rxBusy_irq_of_raised raised

/-- The line falls on a write to INT_SOURCE only where the register goes from nonzero to zero (R188). -/
theorem last_cleared_of_irqAfterClear {old new : Word} (h : irqAfterClear old new true = false) :
    old ≠ 0 ∧ new = 0 := by
  by_contra kept
  rw [irqAfterClear_of_not_last_cleared true kept] at h
  cases h

end Sys2Proof.Machine

namespace Sys2Proof.Claims

open Sys2Proof.Machine

/-! ### Every operation's effect on a raised line -/

theorem exec_txStep_irq_of_raised {i : Instr} {s t : State} (hi : IsTxStep i) (h : exec i s = .next t)
    (raised : s.irq = true) : t.irq = true := by
  obtain rfl | rfl | rfl | rfl := hi
  · obtain rfl := Host.Outcome.next.inj h
    exact raised
  · obtain ⟨w0, w1, -, -, rfl⟩ := execTxWaitBd_next h
    exact (txSnapshot_irq w0 w1 s).trans raised
  · obtain rfl | ⟨-, -, rfl⟩ | ⟨-, rfl⟩ := execTxReadFifo_next h <;> exact raised
  · obtain ⟨-, rfl⟩ := execTxTransmit_next h
    exact txComplete_irq_of_raised raised

theorem exec_rxStep_irq_of_raised {i : Instr} {s t : State} (hi : IsRxStep i) (h : exec i s = .next t)
    (raised : s.irq = true) : t.irq = true := by
  obtain rfl | rfl | rfl | rfl | rfl := hi
  · obtain rfl := Host.Outcome.next.inj h
    exact raised
  · obtain ⟨w0, w1, -, -, rfl⟩ := execRxWaitBd_next h
    exact rxSnapshot_irq_of_raised raised
  · obtain ⟨n, rfl | rfl | rfl | ⟨p, -, rfl⟩⟩ := execRxRecvFile_next h <;> simp [raised]
  · obtain rfl | ⟨f, q, -, rfl | rfl | ⟨-, -, rfl⟩⟩ := execRxRecvSocket_next h <;> exact raised
  · obtain rfl | ⟨-, -, ⟨-, rfl⟩ | ⟨-, -, rfl⟩⟩ := execRxWriteFifo_next h
    · exact raised
    · exact raised
    · exact completeRx_irq_of_raised ((rxStore_irq s).trans raised)

/-- A write to a register other than INT_SOURCE that does not reset the device leaves the line. -/
theorem exec_writeOf_irq {r : Reg} {v : Word} {s t : State} (h : exec (writeOf r v) s = .next t)
    (other : r ≠ .intSource) (hrst : r = .moder → moderRst v = false) : t.irq = s.irq := by
  cases r with
  | intSource => exact absurd rfl other
  | moder =>
    obtain ⟨reset, -⟩ | ⟨-, rfl⟩ := execWrModer_next h
    · exact absurd ((hrst rfl).symm.trans reset) Bool.false_ne_true
    · exact writeModer_irq v s
  | _ =>
    obtain rfl := Host.Outcome.next.inj h
    rfl

/-- A register write that lowers the line acknowledges the last set source bit, or resets the device. -/
theorem exec_writeOf_lowers_irq {r : Reg} {v : Word} {s t : State} (h : exec (writeOf r v) s = .next t)
    (raised : s.irq = true) (lowered : t.irq = false) :
    (r = .intSource ∧ s.regs.intSource ≠ 0 ∧ writeOneToClear s.regs.intSource v = 0) ∨
      (r = .moder ∧ moderRst v = true) := by
  by_cases ack : r = .intSource
  · subst ack
    obtain rfl := Host.Outcome.next.inj h
    exact .inl ⟨rfl, last_cleared_of_irqAfterClear (raised ▸ lowered)⟩
  · right
    by_contra noReset
    have kept : t.irq = s.irq := exec_writeOf_irq h ack (by simpa using noReset)
    rw [kept, raised] at lowered
    cases lowered

/-- An operation that lowers the line is a register write: every other one leaves it, or is an engine's step, which
only raises it. -/
theorem eq_writeOf_of_lowers_irq {i : Instr} {s t : State} (h : exec i s = .next t) (raised : s.irq = true)
    (lowered : t.irq = false) : ∃ r v, i = writeOf r v := by
  by_contra noWrite
  suffices kept : t.irq = true from Bool.false_ne_true (lowered.symm.trans kept)
  cases kind i with
  | write r v => exact absurd ⟨r, v, rfl⟩ noWrite
  | read r =>
    obtain rfl := Host.Outcome.next.inj ((exec_readOf r s).symm.trans h)
    exact raised
  | rdBd k =>
    obtain ⟨w, -, rfl⟩ := execRdBd_next h
    exact raised
  | wrBd k v =>
    obtain ⟨-, rfl⟩ := execWrBd_next h
    exact raised
  | rdUnmapped off =>
    obtain rfl := Host.Outcome.next.inj h
    exact raised
  | wrUnmapped off v =>
    obtain rfl := Host.Outcome.next.inj h
    exact raised
  | tx hi => exact exec_txStep_irq_of_raised hi h raised
  | rx hi => exact exec_rxStep_irq_of_raised hi h raised

/-- Settles O43: an operation that lowers the line is a register write, and of those only the acknowledge of the last
set source bit and the device reset do so. -/
theorem lineFallsOnlyByAcknowledgeOrReset : Obligations.LineFallsOnlyByAcknowledgeOrReset := by
  unfold Obligations.LineFallsOnlyByAcknowledgeOrReset
  intro i s t h raised lowered
  obtain ⟨r, v, rfl⟩ := eq_writeOf_of_lowers_irq h raised lowered
  obtain ⟨rfl, pending, cleared⟩ | ⟨rfl, reset⟩ := exec_writeOf_lowers_irq h raised lowered
  · exact .inl ⟨v, rfl, pending, cleared⟩
  · exact .inr ⟨v, rfl, reset⟩

end Sys2Proof.Claims

/-! SUPPORT. That decoding and encoding are each other's inverse on the codes and the well-formed operations, format by
format, and the obligations about the operation map (R141 to R143, R151). -/

namespace Sys2Proof

/-- The geometry the codes fit, as facts about numbers (R108, R141). -/
theorem Config.wf_iff (cfg : Config) :
    cfg.wf = true ↔ cfg.bdBase % 4 = 0 ∧ 0x50 ≤ cfg.bdBase ∧ cfg.bdBase + 4 * cfg.ringWords ≤ cfg.regionSize ∧
      cfg.regionSize ≤ 0x10000 := by
  simp [Config.wf, and_assoc]

/-- No descriptor word's offset wraps. -/
theorem Config.bdOffset_toNat {cfg : Config} {k : Nat} (hwf : cfg.wf = true) (hk : k < cfg.ringWords) :
    (cfg.bdOffset k).toNat = cfg.bdBase + 4 * k := by
  obtain ⟨-, -, hfit, hsize⟩ := cfg.wf_iff.1 hwf
  rw [Config.bdOffset, BitVec.toNat_ofNat]
  omega

theorem Config.bdIndexOf_bdOffset {cfg : Config} {k : Nat} (hwf : cfg.wf = true) (hk : k < cfg.ringWords) :
    cfg.bdIndexOf (cfg.bdOffset k).toNat = k := by
  rw [Config.bdOffset_toNat hwf hk, Config.bdIndexOf]
  omega

/-- The index of an aligned offset in the window is inside the RAM, and its offset is the one it came from. -/
theorem Config.bdOffset_bdIndexOf {cfg : Config} {off : BitVec 16} (hwf : cfg.wf = true) (aligned : off.toNat % 4 = 0)
    (hw : cfg.inBdWindow off.toNat = true) :
    cfg.bdIndexOf off.toNat < cfg.ringWords ∧ cfg.bdOffset (cfg.bdIndexOf off.toNat) = off := by
  obtain ⟨haligned, -⟩ := cfg.wf_iff.1 hwf
  obtain ⟨hlow, hhigh⟩ := (cfg.inBdWindow_iff off.toNat).1 hw
  have hidx : cfg.bdBase + 4 * cfg.bdIndexOf off.toNat = off.toNat := by
    rw [Config.bdIndexOf]
    omega
  refine ⟨by omega, ?_⟩
  rw [Config.bdOffset, hidx, BitVec.ofNat_toNat, BitVec.setWidth_eq]

/-- The four state codes (R142). -/
theorem stateCode_cases : ∀ st : BitVec 2, st = 0b00 ∨ st = 0b01 ∨ st = 0b10 ∨ st = 0b11 := by decide

theorem decodeRx_recv_file : decodeRx .file 0b10 = .rxRecvFile := rfl

theorem decodeRx_recv_socket : decodeRx .socket 0b10 = .rxRecvSocket := rfl

/-- A number read back in its own format is the code it is the number of. -/
theorem decode_encode (cfg : Config) (i : Instr) :
    decode cfg (encodeFormat cfg i) (encode cfg i) = .ok (decodeCode cfg (encodeCode cfg i)) := by
  rw [decode, encodeFormat, encode, Code.ofWord_toWord]

end Sys2Proof

namespace Sys2Proof.Claims

open Sys2Proof.Machine

/-! ### From the operation to its code and back -/

theorem encodeCode_readOf (cfg : Config) (r : Reg) : encodeCode cfg (readOf r) = .read (offsetOf r) := by
  cases r <;> rfl

theorem encodeCode_writeOf (cfg : Config) (r : Reg) (v : Word) :
    encodeCode cfg (writeOf r v) = .write (offsetOf r) v := by
  cases r <;> rfl

theorem wellFormed_readOf (cfg : Config) (r : Reg) : (readOf r).wellFormed cfg = true := by
  cases r <;> rfl

theorem wellFormed_writeOf (cfg : Config) (r : Reg) (v : Word) : (writeOf r v).wellFormed cfg = true := by
  cases r <;> rfl

/-- The offset of a descriptor word is that word's, for reads and writes. -/
theorem decode_bdOffset {cfg : Config} {k : Nat} (v : Word) (hwf : cfg.wf = true) (hk : k < cfg.ringWords) :
    decodeRead cfg (cfg.bdOffset k) = .rdBd k ∧ decodeWrite cfg (cfg.bdOffset k) v = .wrBd k v := by
  obtain ⟨haligned, habove, -⟩ := cfg.wf_iff.1 hwf
  have hoff := Config.bdOffset_toNat hwf hk
  have hwindow : cfg.inBdWindow (cfg.bdOffset k).toNat = true := by
    rw [Config.inBdWindow_iff]
    omega
  have := decode_in_descriptor_window v (by omega) (by omega) hwindow
  rwa [Config.bdIndexOf_bdOffset hwf hk] at this

theorem decodeCode_encodeCode {cfg : Config} {i : Instr} (hwf : cfg.wf = true) (hi : i.wellFormed cfg = true) :
    decodeCode cfg (encodeCode cfg i) = i := by
  cases kind i with
  | read r =>
    rw [encodeCode_readOf]
    exact decodeRead_offsetOf cfg r
  | write r v =>
    rw [encodeCode_writeOf]
    exact decodeWrite_offsetOf cfg r v
  | rdBd k => exact (decode_bdOffset 0 hwf (of_decide_eq_true hi)).1
  | wrBd k v => exact (decode_bdOffset v hwf (of_decide_eq_true hi)).2
  | rdUnmapped off => exact (decode_of_unmapped 0 hi).1
  | wrUnmapped off v => exact (decode_of_unmapped v hi).2
  | tx h => obtain rfl | rfl | rfl | rfl := h <;> rfl
  | rx h =>
    obtain rfl | rfl | rfl | rfl | rfl := h
    case inr.inr.inl =>
      have variant : cfg.backend = .file := eq_of_beq hi
      rw [encodeCode, decodeCode, variant, decodeRx_recv_file]
    case inr.inr.inr.inl =>
      have variant : cfg.backend = .socket := eq_of_beq hi
      rw [encodeCode, decodeCode, variant, decodeRx_recv_socket]
    all_goals rfl

/-- Settles O1: the number gives the code back, and the code the operation, kind by kind. -/
theorem decodeOfEncodeIsTheOperation : Obligations.DecodeOfEncodeIsTheOperation := by
  unfold Obligations.DecodeOfEncodeIsTheOperation
  intro cfg i hwf hi
  rw [decode_encode, decodeCode_encodeCode hwf hi]

/-! ### From the code to its operation and back -/

/-- `c` names one well-formed operation, which is coded as `c` again. -/
def CodesOne (cfg : Config) (c : Code) : Prop :=
  (decodeCode cfg c).wellFormed cfg = true ∧ encodeCode cfg (decodeCode cfg c) = c

/-- An offset is a register's, decodes to nothing, or is a descriptor word's (R143). -/
theorem offset_cases (cfg : Config) (off : BitVec 16) :
    (∃ r, off = offsetOf r) ∨ cfg.unmapped off.toNat = true ∨
      (off.toNat % 4 = 0 ∧ 0x50 ≤ off.toNat ∧ cfg.inBdWindow off.toNat = true) := by
  by_cases register : ∃ r, off = offsetOf r
  · exact .inl register
  · rw [cfg.unmapped_iff]
    by_cases aligned : off.toNat % 4 = 0
    · have above := above_registers_of_ne_offsetOf aligned (not_exists.1 register)
      by_cases window : cfg.inBdWindow off.toNat = true
      · exact .inr (.inr ⟨aligned, above, window⟩)
      · exact .inr (.inl (.inr ⟨above, window⟩))
    · exact .inr (.inl (.inl aligned))

/-- The accesses at one offset, in the cases of R143. -/
theorem codesOne_access {cfg : Config} (off : BitVec 16) (v : Word) (hwf : cfg.wf = true) :
    CodesOne cfg (.read off) ∧ CodesOne cfg (.write off v) := by
  simp only [CodesOne, decodeCode]
  obtain ⟨r, rfl⟩ | unmapped | ⟨aligned, above, window⟩ := offset_cases cfg off
  · rw [decodeRead_offsetOf, decodeWrite_offsetOf]
    exact ⟨⟨wellFormed_readOf cfg r, encodeCode_readOf cfg r⟩,
      ⟨wellFormed_writeOf cfg r v, encodeCode_writeOf cfg r v⟩⟩
  · obtain ⟨hread, hwrite⟩ := decode_of_unmapped v unmapped
    rw [hread, hwrite]
    exact ⟨⟨unmapped, rfl⟩, ⟨unmapped, rfl⟩⟩
  · obtain ⟨hread, hwrite⟩ := decode_in_descriptor_window v aligned above window
    obtain ⟨hidx, hoff⟩ := Config.bdOffset_bdIndexOf hwf aligned window
    rw [hread, hwrite]
    exact ⟨⟨decide_eq_true hidx, congrArg Code.read hoff⟩,
      ⟨decide_eq_true hidx, congrArg (Code.write · v) hoff⟩⟩

theorem codesOne_tx (cfg : Config) (st : BitVec 2) : CodesOne cfg (.tx st) := by
  obtain rfl | rfl | rfl | rfl := stateCode_cases st <;> exact ⟨rfl, rfl⟩

/-- The RECV code is the step of the device's own transport variant. -/
theorem codesOne_rx (cfg : Config) (st : BitVec 2) : CodesOne cfg (.rx st) := by
  obtain rfl | rfl | rfl | rfl := stateCode_cases st
  case inr.inr.inl =>
    rw [CodesOne, decodeCode]
    cases variant : cfg.backend with
    | file =>
      rw [decodeRx_recv_file]
      exact ⟨beq_iff_eq.2 variant, rfl⟩
    | socket =>
      rw [decodeRx_recv_socket]
      exact ⟨beq_iff_eq.2 variant, rfl⟩
  all_goals exact ⟨rfl, rfl⟩

/-- Settles O2: an offset is a register's, unmapped, or a descriptor word's, and the state codes are four. -/
theorem everyCodeHasOneOperation : Obligations.EveryCodeHasOneOperation := by
  unfold Obligations.EveryCodeHasOneOperation
  intro cfg c hwf
  cases c with
  | read off => exact (codesOne_access off 0 hwf).1
  | write off v => exact (codesOne_access off v hwf).2
  | tx st => exact codesOne_tx cfg st
  | rx st => exact codesOne_rx cfg st

/-- Settles O4, by evaluating the decoder on the eight words. -/
theorem wordsOfTheOperationMapDecode : Obligations.WordsOfTheOperationMapDecode := by
  unfold Obligations.WordsOfTheOperationMapDecode
  exact ⟨rfl, rfl, rfl, rfl, rfl, rfl, rfl, rfl⟩

end Sys2Proof.Claims

/-! SUPPORT. The shared operations that branch or compose, each as one update of the state, and the obligations about
the accesses that store, reset or restart (R54, R185, R186, R440). -/

namespace Sys2Proof.Machine

/-! ### The transport as one update -/

/-- The state with the cursor of one source `n` bytes further. -/
def advanced (src : RxSource) (n : Nat) (s : State) : State :=
  { s with
    rxOff := if src = .rxFile then s.rxOff + n else s.rxOff
    lbOff := if src = .loopback then s.lbOff + n else s.lbOff }

theorem advanceCursor_eq (src : RxSource) (n : Nat) (s : State) : advanceCursor src n s = advanced src n s := by
  cases src <;> rfl

/-- The TX stream after the length `n` is logged (R265, R355). -/
def loggedTxs (n : Nat) (s : State) : List Byte :=
  if s.cfg.backend = .file ∧ s.cfg.txSinkAvailable = true then s.txs ++ encLen s.cfg n else s.txs

theorem txLog_eq (n : Nat) (s : State) : txLog n s = { s with txs := loggedTxs n s } := by
  unfold txLog loggedTxs
  split <;> rfl

/-- The state after the transport has accepted the frame `p` (R356, R366). -/
def handedOver (p : Frame) (s : State) : State :=
  { s with
    txs := if s.cfg.backend = .file then s.txs ++ p else s.txs
    wireOut := if s.cfg.backend = .socket then s.wireOut ++ [p] else s.wireOut
    history := s.history ++ [.frameSent p] }

theorem txSend_of_accepted {s : State} (p : Frame) (h : sendAccepted s = true) :
    txSend p s = (p.length, handedOver p s) := by
  rw [txSend, if_pos h, handedOver]
  cases s.cfg.backend <;> rfl

theorem txSend_of_refused {s : State} (p : Frame) (h : sendAccepted s = false) : txSend p s = (0, s) := by
  rw [txSend, if_neg (by simp [h])]

/-! ### An event as one update -/

/-- The state after an event: its source bit is set, and under the condition `line` the interrupt line is asserted
(R404, R406). -/
def signalled (src : IntSrc) (line : Bool) (s : State) : State :=
  { s with
    regs := { s.regs with intSource := setBit s.regs.intSource (intBit src) }
    irq := line || s.irq
    history := s.history ++ if line = true then [.irqAssert] else [] }

/-- The line and the history after a conditional assertion; what the history held stands first. -/
theorem assertIrqIf_appends (c : Bool) (s : State) :
    assertIrqIf c s = { s with irq := c || s.irq, history := s.history ++ if c = true then [.irqAssert] else [] } := by
  cases c
  · simp [assertIrqIf]
  · rfl

theorem assertIrqIf_raiseSource (src : IntSrc) (line : Bool) (s : State) :
    assertIrqIf line (raiseSource src s) = signalled src line s :=
  assertIrqIf_appends line _

/-! ### The end of a frame as one update -/

/-- The event of a TRANSMIT step (R267). -/
def txEvent (full : Bool) : IntSrc := if full = true then .txb else .txe

/-- The TRANSMIT step after the transport's answer: the descriptor written back, the event signalled, the pointer
advanced (R267). -/
def txFinished (full : Bool) (s : State) : State :=
  let w := txWriteBack full s.tx.bd
  drawn
    (signalled (txEvent full) (txIrqEnabled (txEvent full) s && bdIrq w)
      { s with
        bd := s.bd.set s.tx.idx.toNat w
        tx := { s.tx with bd := w, idx := nextTx s.cfg s.tx.idx (bdWrap w), state := .waitBd } })

theorem txComplete_eq_of_txSend {s u : State} {n : Nat} (h : txSend (txFrame s) s = (n, u)) (hcfg : u.cfg = s.cfg)
    (htx : u.tx = s.tx) : txComplete s = txFinished (n == s.tx.len.toNat) u := by
  simp only [txComplete, h, ← hcfg, ← htx, assertIrqIf_appends]
  rfl

theorem txComplete_of_accepted {s : State} (h : sendAccepted s = true) :
    txComplete s = txFinished true (handedOver (txFrame s) s) := by
  rw [txComplete_eq_of_txSend (txSend_of_accepted (txFrame s) h) rfl rfl, txFrame, fifoTake_length, beq_self_eq_true]

/-- Nothing is accepted: the whole frame only where it is empty. -/
theorem txComplete_of_refused {s : State} (h : sendAccepted s = false) :
    txComplete s = txFinished (0 == s.tx.len.toNat) s :=
  txComplete_eq_of_txSend (txSend_of_refused (txFrame s) h) rfl rfl

/-- The state after `CompleteRx`: the descriptor written back, RXB signalled, the pointer advanced (R310). -/
def rxFinished (s : State) : State :=
  let w := rxWriteBack s
  signalled .rxb (maskedIn .rxb s && bdIrq w)
    { s with
      bd := s.bd.set s.rx.idx.toNat w
      rx := { s.rx with bd := w, idx := nextRx s.cfg s.regs.txBdNum s.rx.idx (bdWrap w), state := .idle } }

theorem completeRx_eq (s : State) : completeRx s = rxFinished s := by
  simp only [completeRx, assertIrqIf_appends]
  rfl

/-- A frame dropped for want of a descriptor: BUSY is signalled (R305). -/
theorem rxBusy_of_pending {s : State} {f : Frame} {q : List Frame} (variant : s.cfg.backend = .socket)
    (pending : s.sockq = f :: q) :
    rxBusy s = signalled .busy (maskedIn .busy s) { s with sockq := q } := by
  simp only [rxBusy, variant, sockProbe, pending, assertIrqIf_raiseSource]
  rfl

theorem rxBusy_of_none {s : State} (h : s.cfg.backend = .file ∨ s.sockq = []) : rxBusy s = s := by
  obtain variant | empty := h
  · simp only [rxBusy, variant]
  · unfold rxBusy sockProbe
    rw [empty]
    cases s.cfg.backend <;> rfl

/-! ### The enable edges and the reset as one update -/

/-- The TX working state after an enable edge (R186). -/
def TxWork.restarted (cfg : Config) (w : TxWork) : TxWork :=
  { w with state := .idle, sent := 0, left := 0, idx := if cfg.reenableResetsIndex = true then 0 else w.idx }

/-- The RX working state after an enable edge (R186). -/
def RxWork.restarted (cfg : Config) (txBdNum : Word) (w : RxWork) : RxWork :=
  { w with
    state := .idle, done := 0, len := 0, error := false
    idx := if cfg.reenableResetsIndex = true then 2 * txBdNum else w.idx }

/-- A MODER write with RST = 0 by the edges of the two enable bits (R185). -/
theorem writeModer_eq (v : Word) (s : State) :
    writeModer v s =
      { s with
        regs := { s.regs with moder := v }
        tx := if moderTxEn s.regs.moder = false ∧ moderTxEn v = true then s.tx.restarted s.cfg else s.tx
        txDue := if moderTxEn s.regs.moder = false ∧ moderTxEn v = true then false else s.txDue
        rx := if moderRxEn s.regs.moder = false ∧ moderRxEn v = true then s.rx.restarted s.cfg s.regs.txBdNum else s.rx
        rxDue := if moderRxEn s.regs.moder = false ∧ moderRxEn v = true then false else s.rxDue } := by
  unfold writeModer
  by_cases txEdge : moderTxEn s.regs.moder = false ∧ moderTxEn v = true <;>
    by_cases rxEdge : moderRxEn s.regs.moder = false ∧ moderRxEn v = true <;>
    simp only [txEdge, rxEdge, and_self, if_true, if_false] <;> rfl

/-- The device reset as one update: the fields of R440, and those of the transport variant (R351). -/
theorem resetState_eq (s : State) :
    resetState s =
      { s with
        regs := s.regs.afterReset
        bd := bdRamAfterReset s.cfg s.draws
        tx := TxWork.afterReset s.cfg s.draws
        rx := RxWork.afterReset s.cfg s.draws
        irq := false
        txs := if s.cfg.backend = .file then [] else s.txs
        rxOff := if s.cfg.backend = .file then 0 else s.rxOff
        lbOff := if s.cfg.backend = .file then 0 else s.lbOff
        sockq := if s.cfg.backend = .socket then [] else s.sockq
        draws := s.draws + 1 } := by
  unfold resetState transportReset
  cases hb : s.cfg.backend <;> simp [drawn]

end Sys2Proof.Machine

namespace Sys2Proof.Claims

open Sys2Proof.Machine

/-! ### The accesses -/

/-- Settles O5: every register read is `exec_readOf`. -/
theorem registerReadAnswersStoredValue : Obligations.RegisterReadAnswersStoredValue := by
  unfold Obligations.RegisterReadAnswersStoredValue
  intro r s
  exact ⟨_, exec_readOf r s, rfl, rfl⟩

/-- A write to a register without a side effect only stores. -/
theorem exec_writeOf_plain {r : Reg} (v : Word) (s : State) (plain : ¬ hasSideEffect r) :
    exec (writeOf r v) s = .next { s with regs := s.regs.set r v } := by
  cases r with
  | moder => exact absurd (.inl rfl) plain
  | intSource => exact absurd (.inr (.inl rfl)) plain
  | txBdNum => exact absurd (.inr (.inr rfl)) plain
  | _ => rfl

/-- Settles O6: the store is `RegFile.set`, which leaves every other register. -/
theorem plainRegisterWriteStoresAllBits : Obligations.PlainRegisterWriteStoresAllBits := by
  unfold Obligations.PlainRegisterWriteStoresAllBits
  intro r v s plain
  exact ⟨_, exec_writeOf_plain v s plain, s.regs.get_set_same r v, fun q hq => s.regs.get_set_other v hq, rfl⟩

theorem exec_wrModer_of_no_reset {v : Word} (s : State) (noRst : moderRst v = false) :
    exec (.wrModer v) s = .next (writeModer v s) :=
  if_neg (by simp [noRst])

/-- Settles O8: `writeModer_eq`, read where an edge rises and where it does not. -/
theorem moderWriteActsOnEnableEdges : Obligations.ModerWriteActsOnEnableEdges := by
  unfold Obligations.ModerWriteActsOnEnableEdges
  intro v s noRst
  refine ⟨_, exec_wrModer_of_no_reset s noRst, ?_⟩
  rw [writeModer_eq]
  refine ⟨rfl, fun txEdge => ?_, fun noEdge => ?_, fun rxEdge => ?_, fun noEdge => ?_⟩
  · exact ⟨if_pos txEdge, if_pos txEdge⟩
  · exact ⟨if_neg noEdge, if_neg noEdge⟩
  · exact ⟨if_pos rxEdge, if_pos rxEdge⟩
  · exact ⟨if_neg noEdge, if_neg noEdge⟩

theorem get_afterReset {f : RegFile} {r : Reg} {x : Word} (h : resetValue r = some x) : f.afterReset.get r = x := by
  cases r <;> cases h <;> rfl

theorem eq_zero_of_mem_bdRamAfterReset {cfg : Config} {c : Nat} (h : cfg.bdRamReset = .zero) :
    ∀ w ∈ bdRamAfterReset cfg c, w = 0 := by
  rw [bdRamAfterReset, h]
  exact fun w => List.eq_of_mem_replicate

theorem exec_wrModer_of_fatal_setup {v : Word} {s : State} (rst : moderRst v = true)
    (fatal : s.cfg.backend = .socket ∧ s.cfg.socketSetupFatal = true) :
    exec (.wrModer v) s = .fault (.raised (.backendSetupFailed .bus)) :=
  (if_pos rst).trans (if_pos fatal)

/-- Settles O9: `resetState_eq`, field by field; where the setup is fatal the outcome is a raised fault. -/
theorem moderWriteWithResetBitResetsTheDevice : Obligations.ModerWriteWithResetBitResetsTheDevice := by
  unfold Obligations.ModerWriteWithResetBitResetsTheDevice
  intro v s rst
  constructor
  · intro noFatal
    refine ⟨_, exec_wrModer_of_reset v s rst noFatal, ?_⟩
    rw [resetState_eq]
    refine ⟨fun r x => get_afterReset, rfl, rfl, bdRamAfterReset_length s.cfg s.draws, eq_zero_of_mem_bdRamAfterReset,
      rfl, rfl, rfl, rfl, rfl, rfl, rfl, rfl, rfl, rfl, fun file => ?_, fun socket => ?_, rfl⟩
    · simp [file]
    · simp [socket]
  · intro socket fatal
    have faults := exec_wrModer_of_fatal_setup rst ⟨socket, fatal⟩
    refine ⟨faults, fun noFault => ?_⟩
    rw [faults, restAfter, State.afterFault, noFault]
    rfl

theorem execRdBd_of_inside {k : Nat} {w : Word} {s : State} (h : s.bd[k]? = some w) :
    exec (.rdBd k) s = .next (respond w s) := by
  rw [exec_rdBd, execRdBd, bdRead_ok.2 h]

theorem execWrBd_of_inside {k : Nat} (v : Word) {s : State} (h : k < s.bd.length) :
    exec (.wrBd k v) s = .next (bdWrite k v s) := if_pos h

/-- Settles O12: the word written is the one found at its own index, and at no other. -/
theorem descriptorWordReadAfterWrite : Obligations.DescriptorWordReadAfterWrite := by
  unfold Obligations.DescriptorWordReadAfterWrite
  intro k v s hsize hk
  have inside : k < s.bd.length := by omega
  have found : s.bd[k]? = some s.bd[k] := List.getElem?_eq_getElem inside
  have written : (bdWrite k v s).bd[k]? = some v := List.getElem?_set_self inside
  constructor
  · exact ⟨_, _, found, execRdBd_of_inside found, rfl, rfl⟩
  · exact ⟨_, _, execWrBd_of_inside v inside, rfl, fun j hj => List.getElem?_set_ne hj.symm,
      execRdBd_of_inside written, rfl⟩

end Sys2Proof.Claims

/-! SUPPORT. What every operation of the table can do, said once: `Effect` is the inversion of `exec`, one constructor
per outcome, each outcome an update of the state. What the rules over all operations need of an outcome is read off it.
-/

namespace Sys2Proof.Machine

/-! ### The engines' steps with an outcome each -/

theorem txSnapshot_of_ready {w0 : Word} (w1 : Word) (s : State) (ready : bdReady w0 = true) :
    txSnapshot w0 w1 s = { s with tx := txTake w0 w1 s, txs := loggedTxs (bdLen w0).toNat s } := by
  rw [txSnapshot, if_pos ready, txLog_eq]
  rfl

theorem txSnapshot_of_not_ready {w0 : Word} (w1 : Word) (s : State) (notReady : bdReady w0 = false) :
    txSnapshot w0 w1 s = { s with tx := { s.tx with bd := w0, buf := w1 } } :=
  if_neg (by simp [notReady])

theorem rxSnapshot_of_ready {w0 : Word} (w1 : Word) (s : State) (ready : bdReady w0 = true) :
    rxSnapshot w0 w1 s = rxTake w0 w1 s := if_pos ready

theorem rxSnapshot_of_inactive {w0 : Word} (w1 : Word) {s : State} (notReady : bdReady w0 = false)
    (inactive : s.rxActive = false) :
    rxSnapshot w0 w1 s = { s with rx := { s.rx with bd := w0, buf := w1, state := .idle } } := by
  rw [rxSnapshot, if_neg (by simp [notReady]), if_pos inactive]

theorem rxSnapshot_of_active {w0 : Word} (w1 : Word) {s : State} (notReady : bdReady w0 = false)
    (active : s.rxActive = true) :
    rxSnapshot w0 w1 s = rxBusy { s with rx := { s.rx with bd := w0, buf := w1 } } := by
  rw [rxSnapshot, if_neg (by simp [notReady]), if_neg (by simp [active])]

theorem rxSnapshot_of_no_frame {w0 : Word} (w1 : Word) {s : State} (notReady : bdReady w0 = false)
    (active : s.rxActive = true) (h : s.cfg.backend = .file ∨ s.sockq = []) :
    rxSnapshot w0 w1 s = { s with rx := { s.rx with bd := w0, buf := w1 } } :=
  (rxSnapshot_of_active w1 notReady active).trans (rxBusy_of_none h)

theorem rxSnapshot_of_pending {w0 : Word} (w1 : Word) {s : State} {f : Frame} {q : List Frame}
    (notReady : bdReady w0 = false) (active : s.rxActive = true) (variant : s.cfg.backend = .socket)
    (pending : s.sockq = f :: q) :
    rxSnapshot w0 w1 s =
      signalled .busy (maskedIn .busy s) { s with rx := { s.rx with bd := w0, buf := w1 }, sockq := q } :=
  (rxSnapshot_of_active w1 notReady active).trans (rxBusy_of_pending variant pending)

end Sys2Proof.Machine

namespace Sys2Proof.Claims

open Sys2Proof.Machine

/-- `Effect s i t`: run in `s`, the operation `i` can answer `t`. -/
inductive Effect (s : State) : Instr → State → Prop where
  /-- a register read -/
  | read (r : Reg) : Effect s (readOf r) (respond (s.regs.get r) s)
  /-- a write to a register without a side effect -/
  | plain (r : Reg) (v : Word) (plain : ¬ hasSideEffect r) : Effect s (writeOf r v) { s with regs := s.regs.set r v }
  /-- a MODER write with RST = 1 -/
  | reset (v : Word) (rst : moderRst v = true) : Effect s (.wrModer v) (resetState s)
  /-- a MODER write with RST = 0 -/
  | moder (v : Word) (noRst : moderRst v = false) : Effect s (.wrModer v) (writeModer v s)
  /-- an INT_SOURCE write -/
  | acknowledge (v : Word) :
    Effect s (.wrIntSource v)
      { s with
        regs := { s.regs with intSource := writeOneToClear s.regs.intSource v }
        irq := irqAfterClear s.regs.intSource (writeOneToClear s.regs.intSource v) s.irq }
  /-- a TX_BD_NUM write -/
  | ring (v : Word) :
    Effect s (.wrTxBdNum v) { s with regs := { s.regs with txBdNum := v }, rx := { s.rx with idx := 2 * v } }
  | rdBd (k : Nat) (w : Word) : Effect s (.rdBd k) (respond w s)
  | wrBd (k : Nat) (v : Word) : Effect s (.wrBd k v) (bdWrite k v s)
  | rdUnmapped (off : BitVec 16) : Effect s (.rdUnmapped off) (respond 0 (record (.illegalAccess .read off) s))
  | wrUnmapped (off : BitVec 16) (v : Word) : Effect s (.wrUnmapped off v) (record (.illegalAccess .write off) s)
  | txIdle : Effect s .txIdle { s with tx := { s.tx with state := .waitBd } }
  /-- TX WAIT_BD takes a ready descriptor -/
  | txTaken (w0 w1 : Word) : Effect s .txWaitBd { s with tx := txTake w0 w1 s, txs := loggedTxs (bdLen w0).toNat s }
  /-- TX WAIT_BD polls -/
  | txPolled (w0 w1 : Word) : Effect s .txWaitBd { s with tx := { s.tx with bd := w0, buf := w1 } }
  /-- the memory does not take part in the access -/
  | txStuck : Effect s .txReadFifo s
  | txStaged : Effect s .txReadFifo (txStage s)
  /-- nothing is left to stage -/
  | txReady (staged : s.tx.len.toNat ≤ s.tx.sent) :
    Effect s .txReadFifo { s with tx := { s.tx with state := .transmit } }
  | txSent (inside : s.tx.idx.toNat < s.bd.length) (accepted : sendAccepted s = true) :
    Effect s .txTransmit (txFinished true (handedOver (txFrame s) s))
  | txRefused (inside : s.tx.idx.toNat < s.bd.length) (full : Bool) : Effect s .txTransmit (txFinished full s)
  | rxIdle : Effect s .rxIdle { s with rx := { s.rx with state := .waitBd } }
  /-- RX WAIT_BD takes an empty descriptor -/
  | rxTaken (w0 w1 : Word) : Effect s .rxWaitBd (rxTake w0 w1 s)
  /-- RX WAIT_BD drops to IDLE -/
  | rxDropped (w0 w1 : Word) : Effect s .rxWaitBd { s with rx := { s.rx with bd := w0, buf := w1, state := .idle } }
  /-- RX WAIT_BD polls -/
  | rxPolled (w0 w1 : Word) : Effect s .rxWaitBd { s with rx := { s.rx with bd := w0, buf := w1 } }
  /-- RX WAIT_BD discards a pending frame -/
  | rxBusy (w0 w1 : Word) (f : Frame) (q : List Frame) (pending : s.sockq = f :: q) :
    Effect s .rxWaitBd
      (signalled .busy (maskedIn .busy s) { s with rx := { s.rx with bd := w0, buf := w1 }, sockq := q })
  /-- the end of the source -/
  | rxStopped (n : Nat) : Effect s .rxRecvFile (requestStop (advanced s.rx.src n s))
  /-- a runt -/
  | rxSkipped (n : Nat) :
    Effect s .rxRecvFile { advanced s.rx.src n s with rx := { s.rx with state := .waitBd } }
  /-- a payload cut short -/
  | rxCut (n : Nat) : Effect s .rxRecvFile { advanced s.rx.src n s with rx := { s.rx with error := true } }
  | rxRecord (n : Nat) (p : Frame) (bounded : p.length ≤ s.cfg.maxFrame) :
    Effect s .rxRecvFile (rxCapture p (advanced s.rx.src n s))
  | rxNothing : Effect s .rxRecvSocket s
  /-- an empty frame is taken -/
  | rxEmpty (f : Frame) (q : List Frame) (pending : s.sockq = f :: q) : Effect s .rxRecvSocket { s with sockq := q }
  /-- a frame for another station is taken -/
  | rxFiltered (f : Frame) (q : List Frame) (pending : s.sockq = f :: q) :
    Effect s .rxRecvSocket (drawn { s with sockq := q })
  | rxFrame (f : Frame) (q : List Frame) (pending : s.sockq = f :: q) (bounded : f.length ≤ s.cfg.maxFrame) :
    Effect s .rxRecvSocket (drawn (rxCapture f { s with sockq := q }))
  /-- the memory does not take part in the access -/
  | rxStuck : Effect s .rxWriteFifo s
  | rxStored : Effect s .rxWriteFifo (rxStore s)
  /-- the frame's last word is stored -/
  | rxCompleted (inside : s.rx.idx.toNat < s.bd.length) : Effect s .rxWriteFifo (rxFinished (rxStore s))

theorem effect_writeOf {r : Reg} {v : Word} {s t : State} (h : exec (writeOf r v) s = .next t) :
    Effect s (writeOf r v) t := by
  by_cases plain : hasSideEffect r
  · obtain rfl | rfl | rfl := plain
    · obtain ⟨rst, rfl⟩ | ⟨noRst, rfl⟩ := execWrModer_next h
      · exact .reset v rst
      · exact .moder v noRst
    · obtain rfl := Host.Outcome.next.inj h
      exact .acknowledge v
    · obtain rfl := Host.Outcome.next.inj h
      exact .ring v
  · obtain rfl := Host.Outcome.next.inj ((exec_writeOf_plain v s plain).symm.trans h)
    exact .plain r v plain

theorem effect_txStep {i : Instr} {s t : State} (hi : IsTxStep i) (h : exec i s = .next t) : Effect s i t := by
  obtain rfl | rfl | rfl | rfl := hi
  · obtain rfl := Host.Outcome.next.inj h
    exact .txIdle
  · obtain ⟨w0, w1, -, -, rfl⟩ := execTxWaitBd_next h
    cases ready : bdReady w0 with
    | true => rw [txSnapshot_of_ready w1 s ready]; exact .txTaken w0 w1
    | false => rw [txSnapshot_of_not_ready w1 s ready]; exact .txPolled w0 w1
  · obtain rfl | ⟨-, -, rfl⟩ | ⟨staged, rfl⟩ := execTxReadFifo_next h
    · exact .txStuck
    · exact .txStaged
    · exact .txReady staged
  · obtain ⟨inside, rfl⟩ := execTxTransmit_next h
    cases accepted : sendAccepted s with
    | true => rw [txComplete_of_accepted accepted]; exact .txSent inside accepted
    | false => rw [txComplete_of_refused accepted]; exact .txRefused inside _

theorem effect_rxWaitBd {w0 w1 : Word} {s : State} : Effect s .rxWaitBd (rxSnapshot w0 w1 s) := by
  cases ready : bdReady w0 with
  | true => rw [rxSnapshot_of_ready w1 s ready]; exact .rxTaken w0 w1
  | false =>
    cases active : s.rxActive with
    | false => rw [rxSnapshot_of_inactive w1 ready active]; exact .rxDropped w0 w1
    | true =>
      cases variant : s.cfg.backend with
      | file => rw [rxSnapshot_of_no_frame w1 ready active (.inl variant)]; exact .rxPolled w0 w1
      | socket =>
        cases pending : s.sockq with
        | nil => rw [rxSnapshot_of_no_frame w1 ready active (.inr pending)]; exact .rxPolled w0 w1
        | cons f q =>
          rw [rxSnapshot_of_pending w1 ready active variant pending]
          exact .rxBusy w0 w1 f q pending

theorem effect_rxStep {i : Instr} {s t : State} (hi : IsRxStep i) (h : exec i s = .next t) : Effect s i t := by
  obtain rfl | rfl | rfl | rfl | rfl := hi
  · obtain rfl := Host.Outcome.next.inj h
    exact .rxIdle
  · obtain ⟨w0, w1, -, -, rfl⟩ := execRxWaitBd_next h
    exact effect_rxWaitBd
  · obtain ⟨n, h⟩ := execRxRecvFile_next h
    rw [advanceCursor_eq] at h
    obtain rfl | rfl | rfl | ⟨p, bounded, rfl⟩ := h
    · exact .rxStopped n
    · exact .rxSkipped n
    · exact .rxCut n
    · exact .rxRecord n p bounded
  · obtain rfl | ⟨f, q, pending, rfl | rfl | ⟨-, bounded, rfl⟩⟩ := execRxRecvSocket_next h
    · exact .rxNothing
    · exact .rxEmpty f q pending
    · exact .rxFiltered f q pending
    · exact .rxFrame f q pending bounded
  · obtain rfl | ⟨-, -, ⟨-, rfl⟩ | ⟨-, inside, rfl⟩⟩ := execRxWriteFifo_next h
    · exact .rxStuck
    · exact .rxStored
    · rw [completeRx_eq]; exact .rxCompleted inside

/-- Every outcome of every operation is one of `Effect`. -/
theorem exec_effect {i : Instr} {s t : State} (h : exec i s = .next t) : Effect s i t := by
  cases kind i with
  | read r =>
    obtain rfl := Host.Outcome.next.inj ((exec_readOf r s).symm.trans h)
    exact .read r
  | write r v => exact effect_writeOf h
  | rdBd k =>
    obtain ⟨w, -, rfl⟩ := execRdBd_next h
    exact .rdBd k w
  | wrBd k v =>
    obtain ⟨-, rfl⟩ := execWrBd_next h
    exact .wrBd k v
  | rdUnmapped off =>
    obtain rfl := Host.Outcome.next.inj h
    exact .rdUnmapped off
  | wrUnmapped off v =>
    obtain rfl := Host.Outcome.next.inj h
    exact .wrUnmapped off v
  | tx hi => exact effect_txStep hi h
  | rx hi => exact effect_rxStep hi h

end Sys2Proof.Claims

/-! SUPPORT. What every operation leaves of the records, the cursors, the source bits, the line, memory and the
descriptor RAM, and the obligations that are rules over all operations. -/

namespace Sys2Proof.Machine

/-! ### The words written back -/

theorem getLsbD_txWriteBack_full (w : Word) (k : Nat) :
    (txWriteBack true w).getLsbD k = (w.getLsbD k && !decide (15 = k)) := getLsbD_clearBit w 15 k

theorem getLsbD_txWriteBack_short (w : Word) (k : Nat) :
    (txWriteBack false w).getLsbD k = (w.getLsbD k && !decide (15 = k) && !decide (2 = k)) := by
  rw [← getLsbD_clearBit, ← getLsbD_clearBit]
  rfl

theorem getLsbD_15_txWriteBack (full : Bool) (w : Word) : (txWriteBack full w).getLsbD 15 = false := by
  cases full
  · rw [getLsbD_txWriteBack_short]
    simp
  · rw [getLsbD_txWriteBack_full]
    simp

/-- The write-back of a received frame, bit by bit (R310). -/
theorem getLsbD_rxWriteBack_eq (s : State) (k : Nat) :
    (rxWriteBack s).getLsbD k =
      ((setBdLen s.rx.bd s.rx.len).getLsbD k && !decide (15 = k) ||
        decide (s.rx.len < (minFl s.regs.packetLen).toNat) && decide (2 = k) ||
        decide ((maxFl s.regs.packetLen).toNat < s.rx.len) && decide (3 = k)) := by
  unfold rxWriteBack
  dsimp only
  split <;> split <;> simp only [setTooBig, setTooShort, clearReady, getLsbD_setBit, getLsbD_clearBit] <;> simp [*]

theorem getLsbD_15_rxWriteBack (s : State) : (rxWriteBack s).getLsbD 15 = false := by
  rw [getLsbD_rxWriteBack_eq]
  simp

end Sys2Proof.Machine

namespace Sys2Proof.Claims

open Sys2Proof.Machine

/-! ### The records -/

/-- From `s` to `t` the records only grew, and the parameters stayed (R65, R67). -/
def Extends (s t : State) : Prop :=
  s.history <+: t.history ∧ s.busOut <+: t.busOut ∧ s.wireOut <+: t.wireOut ∧ t.cfg = s.cfg

theorem Extends.same (s : State) : Extends s s :=
  ⟨⟨[], List.append_nil _⟩, ⟨[], List.append_nil _⟩, ⟨[], List.append_nil _⟩, rfl⟩

theorem Extends.trans {s t u : State} (h : Extends s t) (h' : Extends t u) : Extends s u := by
  obtain ⟨hhist, hbus, hwire, hcfg⟩ := h
  obtain ⟨hhist', hbus', hwire', hcfg'⟩ := h'
  exact ⟨hhist.trans hhist', hbus.trans hbus', hwire.trans hwire', hcfg'.trans hcfg⟩

theorem extends_record (e : HistEvent) (s : State) : Extends s (record e s) :=
  ⟨⟨_, rfl⟩, (Extends.same s).2⟩

theorem extends_respond (v : Word) (s : State) : Extends s (respond v s) :=
  ⟨(Extends.same s).1, ⟨_, rfl⟩, (Extends.same s).2.2⟩

theorem extends_signalled (src : IntSrc) (line : Bool) (s : State) : Extends s (signalled src line s) :=
  ⟨⟨_, rfl⟩, (Extends.same s).2⟩

theorem extends_handedOver (p : Frame) (s : State) : Extends s (handedOver p s) := by
  refine ⟨⟨_, rfl⟩, (Extends.same s).2.1, ?_, rfl⟩
  unfold handedOver
  dsimp only
  split
  · exact ⟨_, rfl⟩
  · exact (Extends.same s).2.2.1

theorem extends_txFinished (full : Bool) (s : State) : Extends s (txFinished full s) :=
  extends_signalled (txEvent full) _ { s with bd := (txFinished full s).bd, tx := (txFinished full s).tx }

theorem extends_rxStore (s : State) : Extends s (rxStore s) := extends_record _ s

theorem extends_rxFinished (s : State) : Extends s (rxFinished s) :=
  extends_signalled .rxb _ { s with bd := (rxFinished s).bd, rx := (rxFinished s).rx }

/-- No operation takes back a record or changes the parameters (R65, R67). -/
theorem Effect.extends {i : Instr} {s t : State} (h : Effect s i t) : Extends s t := by
  cases h with
  | read | rdBd => exact extends_respond _ s
  | rdUnmapped => exact (extends_record _ s).trans (extends_respond _ _)
  | wrUnmapped | txStaged => exact extends_record _ s
  | reset => rw [resetState_eq]; exact Extends.same s
  | moder => rw [writeModer_eq]; exact Extends.same s
  | txSent => exact (extends_handedOver _ s).trans (extends_txFinished _ _)
  | txRefused => exact extends_txFinished _ s
  | rxBusy => exact extends_signalled .busy _ s
  | rxStopped => exact extends_record _ s
  | rxStored => exact extends_rxStore s
  | rxCompleted => exact (extends_rxStore s).trans (extends_rxFinished _)
  | _ => exact Extends.same s

/-- Settles O49: every effect extends the records. -/
theorem recordsOnlyGrow : Obligations.RecordsOnlyGrow := by
  unfold Obligations.RecordsOnlyGrow
  exact fun i s t h => (exec_effect h).extends

/-! ### The loopback cursor -/

theorem advanced_lbOff_of_rxFile {src : RxSource} (n : Nat) (s : State) (h : src ≠ .loopback) :
    (advanced src n s).lbOff = s.lbOff := if_neg h

theorem le_advanced_lbOff (src : RxSource) (n : Nat) (s : State) : s.lbOff ≤ (advanced src n s).lbOff := by
  unfold advanced
  dsimp only
  split
  · exact Nat.le_add_right _ _
  · exact Nat.le_refl _

/-- The loopback cursor stays, or is advanced by a RECV step of its own source, or the device is reset (R353). -/
theorem Effect.lbOff_cases {i : Instr} {s t : State} (h : Effect s i t) :
    t.lbOff = s.lbOff ∨ (i = .rxRecvFile ∧ s.rx.src = .loopback ∧ s.lbOff ≤ t.lbOff) ∨
      ∃ v, i = .wrModer v ∧ moderRst v = true := by
  cases h with
  | reset v rst => exact .inr (.inr ⟨v, rfl, rst⟩)
  | moder v => rw [writeModer_eq]; exact .inl rfl
  | rxStopped n | rxSkipped n | rxCut n | rxRecord n =>
    by_cases loopback : s.rx.src = .loopback
    · exact .inr (.inl ⟨rfl, loopback, le_advanced_lbOff s.rx.src n s⟩)
    · exact .inl (advanced_lbOff_of_rxFile n s loopback)
  | _ => exact .inl rfl

/-- Settles O41: the cursor moves by a RECV step in loopback, forwards, and by a device reset. -/
theorem loopbackCursorOnlyAdvances : Obligations.LoopbackCursorOnlyAdvances := by
  unfold Obligations.LoopbackCursorOnlyAdvances
  intro i s t h
  obtain kept | ⟨recv, loopback, forwards⟩ | reset := (exec_effect h).lbOff_cases
  · exact ⟨.inl kept.ge, fun moved => absurd kept moved⟩
  · exact ⟨.inl forwards, fun _ => .inl ⟨recv, loopback⟩⟩
  · exact ⟨.inr reset, fun _ => .inr reset⟩

/-! ### The source bits -/

/-- The sources an engine's event sets (R35). -/
def IsEvent (src : IntSrc) : Prop := src = .txb ∨ src = .txe ∨ src = .rxb ∨ src = .busy

theorem isEvent_txEvent (full : Bool) : IsEvent (txEvent full) := by
  cases full
  · exact .inr (.inl rfl)
  · exact .inl rfl

theorem set_intSource_of_plain {r : Reg} (v : Word) (f : RegFile) (plain : ¬ hasSideEffect r) :
    (f.set r v).intSource = f.intSource :=
  f.get_set_other (q := .intSource) v fun h => plain (.inr (.inl h.symm))

/-- INT_SOURCE stays, or is acknowledged or reset by the bus, or one event's bit is set by an engine's step (R35). -/
theorem Effect.intSource_cases {i : Instr} {s t : State} (h : Effect s i t) :
    t.regs.intSource = s.regs.intSource ∨
      (¬ IsTxStep i ∧ ¬ IsRxStep i ∧ ∃ v, t.regs.intSource = writeOneToClear s.regs.intSource v) ∨
      ((IsTxStep i ∨ IsRxStep i) ∧
        ∃ src, IsEvent src ∧ t.regs.intSource = setBit s.regs.intSource (intBit src)) := by
  cases h with
  | plain r v plain => exact .inl (set_intSource_of_plain v s.regs plain)
  | reset v =>
    have cleared : (resetState s).regs.intSource = writeOneToClear s.regs.intSource (BitVec.allOnes 32) := by
      simp [writeOneToClear, RegFile.afterReset]
    exact .inr (.inl ⟨by simp [IsTxStep], by simp [IsRxStep], _, cleared⟩)
  | moder v => rw [writeModer_eq]; exact .inl rfl
  | acknowledge v => exact .inr (.inl ⟨by simp [IsTxStep], by simp [IsRxStep], v, rfl⟩)
  | txSent => exact .inr (.inr ⟨.inl (.inr (.inr (.inr rfl))), _, isEvent_txEvent true, rfl⟩)
  | txRefused inside full => exact .inr (.inr ⟨.inl (.inr (.inr (.inr rfl))), _, isEvent_txEvent full, rfl⟩)
  | rxBusy => exact .inr (.inr ⟨.inr (.inr (.inl rfl)), .busy, .inr (.inr (.inr rfl)), rfl⟩)
  | rxCompleted =>
    exact .inr (.inr ⟨.inr (.inr (.inr (.inr (.inr rfl)))), .rxb, .inr (.inr (.inl rfl)), rfl⟩)
  | _ => exact .inl rfl

theorem setAt_setBit (w : Word) {k : Nat} (hk : k < 32) : SetAt k w (setBit w k) := by
  intro j
  rw [getLsbD_setBit, decide_eq_true hk, Bool.true_and, beq_eq_decide]
  simp only [eq_comm]

theorem intBit_of_isEvent {src : IntSrc} (h : IsEvent src) :
    intBit src = 0 ∨ intBit src = 1 ∨ intBit src = 2 ∨ intBit src = 4 := by
  obtain rfl | rfl | rfl | rfl := h <;> decide

theorem intBit_lt (src : IntSrc) : intBit src < 32 := by cases src <;> decide

/-- Settles O45: the bus at most acknowledges, and an engine's event sets its own bit alone. -/
theorem sourceBitsAreSetByEngineEvents : Obligations.SourceBitsAreSetByEngineEvents := by
  unfold Obligations.SourceBitsAreSetByEngineEvents
  intro i s t h
  obtain kept | ⟨noTx, noRx, v, cleared⟩ | ⟨engine, src, event, raised⟩ := (exec_effect h).intSource_cases
  · exact ⟨fun _ _ k hk => kept ▸ hk, fun _ => .inl kept⟩
  · refine ⟨fun _ _ k hk => ?_, fun engine => absurd engine (not_or.2 ⟨noTx, noRx⟩)⟩
    rw [cleared, getLsbD_writeOneToClear] at hk
    exact (Bool.and_eq_true_iff.1 hk).1
  · refine ⟨fun noTx noRx => absurd engine (not_or.2 ⟨noTx, noRx⟩), fun _ => .inr ⟨intBit src, ?_, ?_⟩⟩
    · exact intBit_of_isEvent event
    · exact raised ▸ setAt_setBit _ (intBit_lt src)

/-! ### The rising line -/

theorem getLsbD_signalled (src : IntSrc) (line : Bool) (s : State) :
    (signalled src line s).regs.intSource.getLsbD (intBit src) = true := by
  simp [signalled, getLsbD_setBit, intBit_lt]

theorem asserted_of_rises {line irq : Bool} (low : irq = false) (rises : (line || irq) = true) : line = true := by
  simpa [low] using rises

/-- The history after an event that asserts the line. -/
theorem signalled_history_of_asserted {src : IntSrc} {line : Bool} (s : State) (asserted : line = true) :
    (signalled src line s).history = s.history ++ [.irqAssert] :=
  congrArg (s.history ++ ·) (if_pos asserted)

/-- A TRANSMIT step that raises the line (R404, R406). -/
theorem txFinished_rises {full : Bool} {s : State} (inside : s.tx.idx.toNat < s.bd.length) (low : s.irq = false)
    (rises : (txFinished full s).irq = true) :
    (txFinished full s).history = s.history ++ [.irqAssert] ∧
      ((txFinished full s).regs.intSource.getLsbD 0 = true ∨ (txFinished full s).regs.intSource.getLsbD 1 = true) ∧
      ∃ w, (txFinished full s).bd[s.tx.idx.toNat]? = some w ∧ w.getLsbD 15 = false ∧ w.getLsbD 14 = true := by
  have asserted := asserted_of_rises low rises
  refine ⟨signalled_history_of_asserted (src := txEvent full) s asserted, ?_, txWriteBack full s.tx.bd,
    List.getElem?_set_self inside, getLsbD_15_txWriteBack full s.tx.bd, (Bool.and_eq_true_iff.1 asserted).2⟩
  cases full
  · exact .inr (getLsbD_signalled .txe true s)
  · exact .inl (getLsbD_signalled .txb true s)

/-- A completed reception that raises the line (R310, R404). -/
theorem rxFinished_rises {s : State} (inside : s.rx.idx.toNat < s.bd.length) (low : s.irq = false)
    (rises : (rxFinished s).irq = true) :
    (rxFinished s).history = s.history ++ [.irqAssert] ∧ (rxFinished s).regs.intSource.getLsbD 2 = true ∧
      ∃ w, (rxFinished s).bd[s.rx.idx.toNat]? = some w ∧ w.getLsbD 15 = false ∧ w.getLsbD 14 = true := by
  have asserted := asserted_of_rises low rises
  exact ⟨signalled_history_of_asserted (src := .rxb) s asserted, getLsbD_signalled .rxb true s, rxWriteBack s,
    List.getElem?_set_self inside, getLsbD_15_rxWriteBack s, (Bool.and_eq_true_iff.1 asserted).2⟩

theorem irqAfterClear_of_low (old new : Word) : irqAfterClear old new false = false := by
  simp [irqAfterClear]

/-- Settles O44: of all effects those of TRANSMIT, of a completed reception and of a discarded frame alone raise a low
line. -/
theorem lineRisesOnlyByAnEngineEvent : Obligations.LineRisesOnlyByAnEngineEvent := by
  unfold Obligations.LineRisesOnlyByAnEngineEvent
  intro i s t h low rises
  cases exec_effect h with
  | reset => exact absurd rises (by simp)
  | moder => exact absurd rises (by simp [low])
  | acknowledge => exact absurd rises (by simp [low, irqAfterClear_of_low])
  | txSent inside =>
    obtain ⟨hist, bit, written⟩ := txFinished_rises (s := handedOver (txFrame s) s) inside low rises
    exact ⟨⟨[.frameSent (txFrame s)], hist⟩, .inl ⟨rfl, bit, written⟩⟩
  | txRefused inside =>
    obtain ⟨hist, bit, written⟩ := txFinished_rises inside low rises
    exact ⟨⟨[], by rw [hist, List.append_nil]⟩, .inl ⟨rfl, bit, written⟩⟩
  | rxBusy =>
    have asserted := asserted_of_rises low rises
    refine ⟨⟨[], ?_⟩, .inr (.inr ⟨rfl, getLsbD_signalled .busy true s, asserted⟩)⟩
    rw [List.append_nil]
    exact signalled_history_of_asserted (src := .busy) s asserted
  | rxCompleted inside =>
    obtain ⟨hist, bit, written⟩ := rxFinished_rises (s := rxStore s) inside low rises
    exact ⟨⟨[.memWrite .rx (rxDmaAddr s) (rxDmaWord s)], hist⟩, .inr (.inl ⟨rfl, bit, written⟩)⟩
  | _ => exact absurd (low.symm.trans rises) Bool.false_ne_true

/-! ### Memory -/

/-- The WRITE_FIFO step alone changes memory, by one word (R101). -/
theorem Effect.mem_cases {i : Instr} {s t : State} (h : Effect s i t) :
    t.mem = s.mem ∨ (i = .rxWriteFifo ∧ t.mem = Memory.writeWord s.mem (rxDmaAddr s) (rxDmaWord s)) := by
  cases h with
  | reset => exact .inl (by simp)
  | moder => rw [writeModer_eq]; exact .inl rfl
  | rxStored | rxCompleted => exact .inr ⟨rfl, rfl⟩
  | _ => exact .inl rfl

/-- A byte outside the word stored stays. -/
theorem read_writeWord_outside {m : List Host.Cell} {a v x : Word} (h : Memory.wf m = true) (hx : Outside a 4 x) :
    Memory.read (Memory.writeWord m a v) x.toNat = Memory.read m x.toNat :=
  Memory.read_writeBytes_other (wordBytes v) h fun j hj e => hx j hj (BitVec.eq_of_toNat_eq e)

/-- An address at offset `j + 1` of `a` is at offset `j` of the next one. -/
theorem add_ofNat_succ (a : Word) (j : Nat) : a + BitVec.ofNat 32 (j + 1) = a + 1 + BitVec.ofNat 32 j := by
  rw [Nat.add_comm j 1, BitVec.ofNat_add, ← BitVec.add_assoc]
  rfl

theorem Outside.tail {a x : Word} {n : Nat} (h : Outside a (n + 1) x) : Outside (a + 1) n x := fun j hj =>
  add_ofNat_succ a j ▸ h (j + 1) (Nat.succ_lt_succ hj)

theorem Outside.head {a x : Word} {n : Nat} (h : Outside a (n + 1) x) : x ≠ a := by
  simpa using h 0 (Nat.succ_pos n)

/-- Memory with the byte another master stores at `a`, where the memory takes it (R111). -/
def storedByte (s : State) (a : Word) (b : Byte) : List Host.Cell :=
  if admitsByte s.cfg a = true then Memory.write s.mem a.toNat b else s.mem

theorem otherMasterStore_cons (a : Word) (b : Byte) (bs : List Byte) (s : State) :
    otherMasterStore a (b :: bs) s = otherMasterStore (a + 1) bs { s with mem := storedByte s a b } := by
  rw [otherMasterStore, storedByte]
  split <;> rfl

theorem storedByte_wf {s : State} {a : Word} (b : Byte) (h : Memory.wf s.mem = true) :
    Memory.wf (storedByte s a b) = true := by
  unfold storedByte
  split
  · exact Memory.write_wf b h a.isLt
  · exact h

theorem read_storedByte {s : State} {a x : Word} {b : Byte} (h : Memory.wf s.mem = true) :
    Memory.read (storedByte s a b) x.toNat =
      if x = a ∧ admitsByte s.cfg a = true then b else Memory.read s.mem x.toNat := by
  unfold storedByte
  split
  · rw [Memory.read_write h]
    simp [BitVec.toNat_inj, *]
  · simp [*]

/-- A store by another master changes memory alone. -/
theorem otherMasterStore_frame (a : Word) (bs : List Byte) (s : State) :
    otherMasterStore a bs s = { s with mem := (otherMasterStore a bs s).mem } := by
  induction bs generalizing a s with
  | nil => rfl
  | cons b bs ih =>
    rw [otherMasterStore_cons]
    exact ih (a + 1) { s with mem := storedByte s a b }

theorem read_otherMasterStore_outside {a x : Word} {bs : List Byte} {s : State} (h : Memory.wf s.mem = true)
    (hx : Outside a bs.length x) :
    Memory.read (otherMasterStore a bs s).mem x.toNat = Memory.read s.mem x.toNat := by
  induction bs generalizing a s with
  | nil => rfl
  | cons b bs ih =>
    rw [otherMasterStore_cons, ih (storedByte_wf b h) hx.tail, read_storedByte h, if_neg fun e => hx.head e.1]

/-- The first address of a store that does not wrap is none of the later ones. -/
theorem outside_next (a : Word) {n : Nat} (hn : n + 1 ≤ 2 ^ 32) : Outside (a + 1) n a := by
  intro j hj
  bv_omega

/-- Each byte of a store that does not wrap is at its own address, where the memory takes it. -/
theorem read_otherMasterStore_inside {a : Word} {bs : List Byte} {s : State} (h : Memory.wf s.mem = true)
    (hlen : bs.length ≤ 2 ^ 32) {j : Nat} {b : Byte} (hb : bs[j]? = some b) :
    Memory.read (otherMasterStore a bs s).mem (a + BitVec.ofNat 32 j).toNat =
      if admitsByte s.cfg (a + BitVec.ofNat 32 j) = true then b
      else Memory.read s.mem (a + BitVec.ofNat 32 j).toNat := by
  induction bs generalizing a s j with
  | nil => cases hb
  | cons c bs ih =>
    rw [List.length_cons] at hlen
    rw [otherMasterStore_cons]
    cases j with
    | zero =>
      obtain rfl : c = b := by simpa using hb
      have first := read_otherMasterStore_outside (s := { s with mem := storedByte s a c }) (storedByte_wf c h)
        (outside_next a hlen)
      rw [show a + BitVec.ofNat 32 0 = a from BitVec.add_zero a, first, read_storedByte h]
      simp
    | succ k =>
      rw [List.getElem?_cons_succ] at hb
      have hk : k < bs.length := (List.getElem?_eq_some_iff.1 hb).1
      have apart : a + 1 + BitVec.ofNat 32 k ≠ a := (outside_next a hlen k hk).symm
      have kept : Memory.read (storedByte s a c) (a + 1 + BitVec.ofNat 32 k).toNat =
          Memory.read s.mem (a + 1 + BitVec.ofNat 32 k).toNat := by
        rw [read_storedByte h, if_neg fun e => apart e.1]
      rw [add_ofNat_succ, ih (storedByte_wf c h) (by omega) hb, kept]

/-- Settles O46: the effects change memory by a word or not at all, and another master's store goes byte by byte. -/
theorem onlyRxWriteFifoStoresToMemory : Obligations.OnlyRxWriteFifoStoresToMemory := by
  unfold Obligations.OnlyRxWriteFifoStoresToMemory
  constructor
  · intro i s t h hwf
    obtain kept | ⟨rfl, stored⟩ := (exec_effect h).mem_cases
    · exact ⟨fun _ => kept, fun x _ => by rw [kept]⟩
    · refine ⟨fun other => absurd rfl other, fun x hx => ?_⟩
      rw [stored, read_writeWord_outside hwf hx]
  · intro s a bs rest running hsched hwf
    refine ⟨_, step_of_other (fetch_of_slot running.1 running.2 hsched), otherMasterStore_frame a bs _, fun x hx => ?_,
      fun hlen j b hb => ?_⟩
    · exact read_otherMasterStore_outside (s := { s with sched := rest }) hwf hx
    · exact read_otherMasterStore_inside (s := { s with sched := rest }) hwf hlen hb

/-! ### The descriptor RAM -/

/-- The descriptor RAM stays, or one word of it is written, or the device is reset. -/
theorem Effect.bd_cases {i : Instr} {s t : State} (h : Effect s i t) :
    t.bd = s.bd ∨
      (i = .txTransmit ∧ ∃ w, t.bd = s.bd.set s.tx.idx.toNat w) ∨
      (i = .rxWriteFifo ∧ ∃ w, t.bd = s.bd.set s.rx.idx.toNat w) ∨
      (∃ k v, i = .wrBd k v ∧ t.bd = s.bd.set k v) ∨
      ∃ v, i = .wrModer v ∧ moderRst v = true ∧ t.bd = bdRamAfterReset s.cfg s.draws := by
  cases h with
  | reset v rst => exact .inr (.inr (.inr (.inr ⟨v, rfl, rst, by simp⟩)))
  | moder => rw [writeModer_eq]; exact .inl rfl
  | wrBd k v => exact .inr (.inr (.inr (.inl ⟨k, v, rfl, rfl⟩)))
  | txSent | txRefused => exact .inr (.inl ⟨rfl, _, rfl⟩)
  | rxCompleted => exact .inr (.inr (.inl ⟨rfl, _, rfl⟩))
  | _ => exact .inl rfl

/-- Settles O47: a word written leaves every other word, and each writer names its own. -/
theorem enginesWriteBackOnlyTheirOwnWord : Obligations.EnginesWriteBackOnlyTheirOwnWord := by
  unfold Obligations.EnginesWriteBackOnlyTheirOwnWord
  intro i s t h
  obtain kept | ⟨rfl, w, written⟩ | ⟨rfl, w, written⟩ | ⟨k, v, rfl, written⟩ | ⟨v, rfl, rst, -⟩ :=
    (exec_effect h).bd_cases
  · exact ⟨fun _ j _ => by rw [kept], fun _ j _ => by rw [kept], fun _ _ _ j _ => by rw [kept],
      fun changed => absurd kept changed⟩
  · exact ⟨fun _ j hj => written ▸ List.getElem?_set_ne hj.symm, by simp [IsRxStep], by simp, fun _ => .inl rfl⟩
  · exact ⟨by simp [IsTxStep], fun _ j hj => written ▸ List.getElem?_set_ne hj.symm, by simp,
      fun _ => .inr (.inl rfl)⟩
  · refine ⟨by simp [IsTxStep], by simp [IsRxStep], ?_, fun _ => .inr (.inr (.inl ⟨k, v, rfl⟩))⟩
    rintro _ _ ⟨⟩ j hj
    exact written ▸ List.getElem?_set_ne hj.symm
  · exact ⟨by simp [IsTxStep], by simp [IsRxStep], by simp, fun _ => .inr (.inr (.inr ⟨v, rfl, rst⟩))⟩

end Sys2Proof.Claims

/-! SUPPORT. The invariant part by part, each part kept by every effect, and the obligations that every step keeps the
invariant and the TX pointer. -/

namespace Sys2Proof.Machine

/-! ### The parts of the invariant -/

/-- What the invariant says of the registers and the line (R35, R184, R188). -/
structure LineSound (regs : RegFile) (irq : Bool) : Prop where
  rstZero : moderRst regs.moder = false
  sources : regs.intSource &&& ~~~0x17#32 = 0
  lineHasSource : irq = true → regs.intSource ≠ 0

/-- What the invariant says of the TX working state (R101, R266). -/
structure TxWork.Sound (w : TxWork) : Prop where
  words : w.sent % 4 = 0
  staged : w.sent ≤ w.fifo.length
  whole : w.state = .transmit → w.len.toNat ≤ w.sent

/-- What the invariant says of the RX working state (R101, R306, R307). -/
structure RxWork.Sound (maxFrame : Nat) (w : RxWork) : Prop where
  words : w.done % 4 = 0
  bounded : w.len ≤ maxFrame
  whole : w.state = .writeFifo → w.len ≤ w.fifo.length

/-- The invariant, as its parts. -/
theorem inv_iff (s : State) :
    s.Inv ↔ Memory.wf s.mem = true ∧ s.bd.length = s.cfg.ringWords ∧ LineSound s.regs s.irq ∧
      (s.cfg.txSinkAvailable = false → s.txs = []) ∧ (s.cfg.rxSourceAvailable = false → s.sockq = []) ∧
      s.tx.Sound ∧ s.rx.Sound s.cfg.maxFrame := by
  constructor
  · intro h
    exact ⟨h.memCanonical, h.bdSize, ⟨h.moderRstZero, h.intSourceBits, h.irqHasSource⟩, h.txsNeedsSink,
      h.sockqNeedsSource, ⟨h.txSentWords, h.txSentStaged, h.txTransmitStaged⟩,
      ⟨h.rxDoneWords, h.rxLenBounded, h.rxFrameStaged⟩⟩
  · rintro ⟨hmem, hbd, hline, htxs, hsockq, htx, hrx⟩
    exact ⟨hmem, hbd, hline.rstZero, hline.sources, hline.lineHasSource, htxs, hsockq, htx.words, htx.staged, htx.whole,
      hrx.words, hrx.bounded, hrx.whole⟩

/-- The invariant does not speak of the schedule, the tick and the draws. -/
theorem SameDevice.inv {s u : State} (h : SameDevice s u) (hs : s.Inv) : u.Inv := by
  rw [h, inv_iff]
  exact (inv_iff s).1 hs

/-! ### Registers and line -/

theorem lineSound_afterReset (f : RegFile) : LineSound f.afterReset false :=
  ⟨(by decide : moderRst 0x0000A000 = false), BitVec.zero_and, fun h => absurd h Bool.false_ne_true⟩

/-- The line stays up over an acknowledge only while a source bit is left (R188). -/
theorem LineSound.acknowledge {regs : RegFile} {irq : Bool} (v : Word) (h : LineSound regs irq) :
    LineSound { regs with intSource := writeOneToClear regs.intSource v }
      (irqAfterClear regs.intSource (writeOneToClear regs.intSource v) irq) := by
  refine ⟨h.rstZero, writeOneToClear_within h.sources, fun up cleared => ?_⟩
  by_cases last : regs.intSource ≠ 0 ∧ writeOneToClear regs.intSource v = 0
  · rw [irqAfterClear_of_last_cleared irq last] at up
    cases up
  · rw [irqAfterClear_of_not_last_cleared irq last] at up
    exact last ⟨h.lineHasSource up, cleared⟩

/-! ### Working states -/

theorem TxWork.sound_afterReset (cfg : Config) (c : Nat) : (TxWork.afterReset cfg c).Sound :=
  ⟨rfl, Nat.le_refl _, nofun⟩

theorem RxWork.sound_afterReset (cfg : Config) (c : Nat) : (RxWork.afterReset cfg c).Sound cfg.maxFrame :=
  ⟨rfl, Nat.zero_le _, nofun⟩

theorem TxWork.sound_restarted (cfg : Config) (w : TxWork) : (w.restarted cfg).Sound :=
  ⟨rfl, Nat.zero_le _, nofun⟩

theorem RxWork.sound_restarted (cfg : Config) (txBdNum : Word) (w : RxWork) (n : Nat) :
    (w.restarted cfg txBdNum).Sound n :=
  ⟨rfl, Nat.zero_le _, nofun⟩

/-- A step that stages a word stages all four bytes of it, and moves to TRANSMIT only with the whole frame staged. -/
theorem sound_txStage {s : State} (h : s.tx.Sound) : (txStage s).tx.Sound := by
  have words : (s.tx.sent + 4) % 4 = 0 := by rw [Nat.add_mod_right, h.words]
  have staged : s.tx.sent + 4 ≤ (txStage s).tx.fifo.length := by
    simp only [txStage, record_tx, drawn_tx, fifoWrite_length, wordBytes_length]
    exact Nat.le_max_right _ _
  refine ⟨words, staged, fun transmit => ?_⟩
  change (if s.tx.len.toNat ≤ s.tx.sent + 4 ∧ s.cfg.readFifoExtraTick = false then .transmit else s.tx.state) =
    TxState.transmit at transmit
  change s.tx.len.toNat ≤ s.tx.sent + 4
  split at transmit
  next last => exact last.1
  next => exact Nat.le_add_right_of_le (h.whole transmit)

theorem sound_rxCapture {p : Frame} {n : Nat} (s : State) (bounded : p.length ≤ n) : (rxCapture p s).rx.Sound n := by
  refine ⟨rfl, bounded, fun _ => ?_⟩
  simp only [rxCapture, fifoWrite_length]
  omega

end Sys2Proof.Machine

namespace Sys2Proof.Claims

open Sys2Proof.Machine

/-! ### Each part kept by every effect -/

theorem lineSound_signalled {src : IntSrc} {s : State} (line : Bool) (event : IsEvent src) (h : LineSound s.regs s.irq) :
    LineSound (signalled src line s).regs (signalled src line s).irq := by
  have inside : setBit 0 (intBit src) &&& ~~~0x17#32 = 0 := by
    obtain rfl | rfl | rfl | rfl := event <;> decide
  exact ⟨h.rstZero, setBit_within h.sources inside, fun _ => setBit_ne_zero _ _ (intBit_lt src)⟩

theorem lineSound_plain {r : Reg} {f : RegFile} {irq : Bool} (v : Word) (plain : ¬ hasSideEffect r)
    (h : LineSound f irq) : LineSound (f.set r v) irq := by
  have moder : (f.set r v).moder = f.moder := f.get_set_other (q := .moder) v fun e => plain (.inl e.symm)
  have intSource := set_intSource_of_plain v f plain
  exact ⟨moder ▸ h.rstZero, intSource ▸ h.sources, intSource ▸ h.lineHasSource⟩

theorem Effect.lineSound {i : Instr} {s t : State} (h : Effect s i t) (hs : LineSound s.regs s.irq) :
    LineSound t.regs t.irq := by
  cases h with
  | plain r v plain => exact lineSound_plain v plain hs
  | reset => rw [resetState_eq]; exact lineSound_afterReset s.regs
  | moder v noRst => rw [writeModer_eq]; exact ⟨noRst, hs.sources, hs.lineHasSource⟩
  | acknowledge v => exact hs.acknowledge v
  | ring => exact ⟨hs.rstZero, hs.sources, hs.lineHasSource⟩
  | txSent => exact lineSound_signalled (s := handedOver (txFrame s) s) _ (isEvent_txEvent true) hs
  | txRefused inside full => exact lineSound_signalled (s := s) _ (isEvent_txEvent full) hs
  | rxBusy => exact lineSound_signalled (s := s) _ (.inr (.inr (.inr rfl))) hs
  | rxCompleted => exact lineSound_signalled (s := s) _ (.inr (.inr (.inl rfl))) hs
  | _ => exact hs

theorem Effect.mem_wf {i : Instr} {s t : State} (h : Effect s i t) (hs : Memory.wf s.mem = true) :
    Memory.wf t.mem = true := by
  obtain kept | ⟨-, stored⟩ := h.mem_cases
  · rwa [kept]
  · rw [stored]
    exact Memory.writeWord_wf hs

theorem Effect.bd_length {i : Instr} {s t : State} (h : Effect s i t) (hs : s.bd.length = s.cfg.ringWords) :
    t.bd.length = s.cfg.ringWords := by
  obtain kept | ⟨-, w, written⟩ | ⟨-, w, written⟩ | ⟨k, v, -, written⟩ | ⟨v, -, -, reset⟩ := h.bd_cases
  · rw [kept, hs]
  · rw [written, List.length_set, hs]
  · rw [written, List.length_set, hs]
  · rw [written, List.length_set, hs]
  · rw [reset, bdRamAfterReset_length]

theorem sinkAvailable_of_accepted {s : State} (h : sendAccepted s = true) : s.cfg.txSinkAvailable = true := by
  unfold sendAccepted at h
  split at h
  · exact h
  · exact (Bool.and_eq_true_iff.1 h).1

theorem Effect.txs_nil {i : Instr} {s t : State} (h : Effect s i t) (unavailable : s.cfg.txSinkAvailable = false)
    (hs : s.txs = []) : t.txs = [] := by
  cases h with
  | reset => rw [resetState_eq]; simp [hs]
  | moder => rw [writeModer_eq]; exact hs
  | txTaken w0 w1 => simp [loggedTxs, unavailable, hs]
  | txSent inside accepted =>
    exact absurd (sinkAvailable_of_accepted accepted) (by simp [unavailable])
  | _ => exact hs

theorem Effect.sockq_nil {i : Instr} {s t : State} (h : Effect s i t) (hs : s.sockq = []) : t.sockq = [] := by
  cases h with
  | reset => rw [resetState_eq]; simp [hs]
  | moder => rw [writeModer_eq]; exact hs
  | rxBusy w0 w1 f q pending => exact absurd (hs.symm.trans pending) nofun
  | rxEmpty f q pending | rxFiltered f q pending | rxFrame f q pending => exact absurd (hs.symm.trans pending) nofun
  | _ => exact hs

theorem Effect.txSound {i : Instr} {s t : State} (h : Effect s i t) (hs : s.tx.Sound) : t.tx.Sound := by
  cases h with
  | reset => rw [resetState_eq]; exact TxWork.sound_afterReset s.cfg s.draws
  | moder v =>
    rw [writeModer_eq]
    dsimp only
    split
    · exact TxWork.sound_restarted s.cfg s.tx
    · exact hs
  | txIdle => exact ⟨hs.words, hs.staged, nofun⟩
  | txTaken => exact ⟨rfl, Nat.zero_le _, nofun⟩
  | txPolled => exact ⟨hs.words, hs.staged, hs.whole⟩
  | txStaged => exact sound_txStage hs
  | txReady staged => exact ⟨hs.words, hs.staged, fun _ => staged⟩
  | txSent | txRefused => exact ⟨hs.words, hs.staged, nofun⟩
  | _ => exact hs

theorem Effect.rxSound {i : Instr} {s t : State} (h : Effect s i t) (hs : s.rx.Sound s.cfg.maxFrame) :
    t.rx.Sound s.cfg.maxFrame := by
  cases h with
  | reset => rw [resetState_eq]; exact RxWork.sound_afterReset s.cfg s.draws
  | moder v =>
    rw [writeModer_eq]
    dsimp only
    split
    · exact RxWork.sound_restarted s.cfg s.regs.txBdNum s.rx s.cfg.maxFrame
    · exact hs
  | ring | rxPolled | rxBusy | rxCut => exact ⟨hs.words, hs.bounded, hs.whole⟩
  | rxIdle | rxTaken | rxDropped | rxSkipped => exact ⟨hs.words, hs.bounded, nofun⟩
  | rxRecord n p bounded => exact sound_rxCapture _ bounded
  | rxFrame f q pending bounded => exact sound_rxCapture { s with sockq := q } bounded
  | rxStored => exact ⟨(Nat.add_mod_right _ _).trans hs.words, hs.bounded, hs.whole⟩
  | rxCompleted => exact ⟨(Nat.add_mod_right _ _).trans hs.words, hs.bounded, nofun⟩
  | _ => exact hs

theorem Effect.cfg {i : Instr} {s t : State} (h : Effect s i t) : t.cfg = s.cfg := h.extends.2.2.2

theorem Effect.inv {i : Instr} {s t : State} (h : Effect s i t) (hs : s.Inv) : t.Inv := by
  obtain ⟨hmem, hbd, hline, htxs, hsockq, htx, hrx⟩ := (inv_iff s).1 hs
  rw [inv_iff, h.cfg]
  exact ⟨h.mem_wf hmem, h.bd_length hbd, h.lineSound hline, fun hu => h.txs_nil hu (htxs hu),
    fun hu => h.sockq_nil (hsockq hu), h.txSound htx, h.rxSound hrx⟩

/-! ### The steps that are none of the table's operations -/

theorem inv_envArrive (f : Frame) {s : State} (hs : s.Inv) : (envArrive f s).Inv := by
  unfold envArrive
  split
  · exact hs
  · split
    next available =>
      have sockq : s.cfg.rxSourceAvailable = false → s.sockq ++ [f] = [] := by simp [available]
      obtain ⟨hmem, hbd, hline, htxs, -, htx, hrx⟩ := (inv_iff s).1 hs
      exact (inv_iff _).2 ⟨hmem, hbd, hline, htxs, sockq, htx, hrx⟩
    next => exact hs

theorem inv_otherMasterStore (a : Word) (bs : List Byte) {s : State} (hs : s.Inv) : (otherMasterStore a bs s).Inv := by
  obtain ⟨hmem, rest⟩ := (inv_iff s).1 hs
  rw [otherMasterStore_frame]
  exact (inv_iff _).2 ⟨Memory.otherMasterStore_wf bs hmem, rest⟩

theorem inv_of_otherStep {s t : State} (h : OtherStep s t) (hs : s.Inv) : t.Inv := by
  cases h with
  | nothing same => exact same.inv hs
  | arrive same f => exact inv_envArrive f (same.inv hs)
  | store same a bs => exact inv_otherMasterStore a bs (same.inv hs)

/-- A step with a next state is an effect in a state that differs in the model's own fields alone, or is none of the
table's operations. -/
theorem step_effect {s t : State} (h : step s = .next t) :
    (∃ i u, SameDevice s u ∧ Effect u i t) ∨ OtherStep s t := by
  obtain ⟨c, u, hf, same, -⟩ | ⟨u, hf, other⟩ | ⟨r, hf⟩ | ⟨f, hf⟩ := fetch_cases (s := s)
  · exact .inl ⟨_, u, same, exec_effect ((step_of_run hf).symm.trans h)⟩
  · obtain rfl := Host.Outcome.next.inj ((step_of_other hf).symm.trans h)
    exact .inr other
  · rw [step, hf] at h
    cases h
  · exact absurd ((step_of_halt hf).symm.trans h) nofun

/-- Settles O59: the step is an effect or an environment step, and each part of the invariant is kept by both. -/
theorem everyStepKeepsTheInvariant : Obligations.EveryStepKeepsTheInvariant := by
  unfold Obligations.EveryStepKeepsTheInvariant
  intro s t hs h
  obtain ⟨i, u, same, effect⟩ | other := step_effect h
  · exact effect.inv (same.inv hs)
  · exact inv_of_otherStep other hs

theorem inv_construct (cfg : Config) : (State.construct cfg).Inv :=
  (inv_iff _).2 ⟨rfl, bdRamAfterReset_length cfg 0, lineSound_afterReset _, fun _ => rfl, fun _ => rfl,
    TxWork.sound_afterReset cfg 0, RxWork.sound_afterReset cfg 0⟩

/-- Settles O58: each part holds of the values a construction gives. -/
theorem invariantHoldsAtReset : Obligations.InvariantHoldsAtReset := by
  unfold Obligations.InvariantHoldsAtReset
  exact ⟨inv_construct, inv_construct Config.standard⟩

/-! ### The TX pointer -/

/-- The TX pointer stays, is put back to 0, or is advanced by `NextTx` (R186, R268). -/
theorem Effect.txIdx_cases {i : Instr} {s t : State} (h : Effect s i t) :
    t.tx.idx = s.tx.idx ∨ t.tx.idx = 0 ∨ ∃ wr, t.tx.idx = nextTx s.cfg s.tx.idx wr := by
  cases h with
  | reset => rw [resetState_eq]; exact .inr (.inl rfl)
  | moder =>
    rw [writeModer_eq]
    dsimp only
    split
    · rw [TxWork.restarted]
      dsimp only
      split
      · exact .inr (.inl rfl)
      · exact .inl rfl
    · exact .inl rfl
  | txSent | txRefused => exact .inr (.inr ⟨_, rfl⟩)
  | _ => exact .inl rfl

theorem Effect.txPointerInRam {i : Instr} {s t : State} (h : Effect s i t) (ring : s.cfg.defaultRing)
    (hs : s.TxPointerInRam) : t.TxPointerInRam := by
  obtain ⟨even, inside⟩ := hs
  have two : 2 ≤ s.cfg.ringWords := ring.1
  rw [State.TxPointerInRam, h.cfg]
  obtain kept | zero | ⟨wr, next⟩ := h.txIdx_cases
  · rw [kept]
    exact ⟨even, inside⟩
  · rw [zero]
    exact ⟨rfl, two⟩
  · obtain ⟨even', inside'⟩ := nextTx_in_default_ring wr ring even inside
    rw [next]
    exact ⟨even', by omega⟩

theorem otherStep_keeps_cfg_tx {s t : State} (h : OtherStep s t) : t.cfg = s.cfg ∧ t.tx = s.tx := by
  cases h with
  | nothing same => rw [same]; exact ⟨rfl, rfl⟩
  | arrive same f => rw [envArrive_cfg, envArrive_tx, same]; exact ⟨rfl, rfl⟩
  | store same a bs => rw [otherMasterStore_frame, same]; exact ⟨rfl, rfl⟩

/-- Settles O60: an effect moves the pointer to 0 or by `NextTx`, and the other steps leave it. -/
theorem everyStepKeepsTheTxPointerInRam : Obligations.EveryStepKeepsTheTxPointerInRam := by
  unfold Obligations.EveryStepKeepsTheTxPointerInRam
  intro s t h
  obtain ⟨i, u, same, effect⟩ | other := step_effect h
  · have hcfg : u.cfg = s.cfg := by rw [same]
    have htx : u.tx = s.tx := by rw [same]
    refine ⟨effect.cfg.trans hcfg, fun ring hs => effect.txPointerInRam (hcfg ▸ ring) ?_⟩
    rwa [State.TxPointerInRam, hcfg, htx]
  · obtain ⟨hcfg, htx⟩ := otherStep_keeps_cfg_tx other
    refine ⟨hcfg, fun _ hs => ?_⟩
    rwa [State.TxPointerInRam, hcfg, htx]

end Sys2Proof.Claims

/-! SUPPORT. A turn of either engine, said once for both, what the machine does where nothing is scheduled, and the
obligations about one step of the machine (R63, R64, R180, R181, R363, R463). -/

namespace Sys2Proof.Machine

/-! ### The two engines as one -/

/-- The TX engine or the RX engine. -/
inductive Engine where
  | tx
  | rx

namespace Engine

/-- The other of the two engines. -/
def other : Engine → Engine
  | .tx => .rx
  | .rx => .tx

/-- The engine has its step of the current tick still to take (R463). -/
def due (e : Engine) (s : State) : Bool :=
  match e with
  | .tx => s.txDue
  | .rx => s.rxDue

/-- The engine is active (R63). -/
def active (e : Engine) (s : State) : Bool :=
  match e with
  | .tx => s.txActive
  | .rx => s.rxActive

/-- The engine has a step of the current tick to take and is active (R463). -/
def waiting (e : Engine) (s : State) : Bool := e.due s && e.active s

/-- The operation the engine's state selects (R260, R300). -/
def op (e : Engine) (s : State) : Instr :=
  match e with
  | .tx => decodeTx (txCode s.tx.state)
  | .rx => decodeRx s.cfg.backend (rxCode s.rx.state)

/-- The state with the engine's step of the tick noted as taken. -/
def taken (e : Engine) (s : State) : State :=
  match e with
  | .tx => { s with txDue := false }
  | .rx => { s with rxDue := false }

/-- What the engine's turn finds. -/
def turn (e : Engine) (s : State) : Fetched :=
  match e with
  | .tx => fetchTx s
  | .rx => fetchRx s

theorem other_other (e : Engine) : e.other.other = e := by cases e <;> rfl

theorem eq_or_eq_other (e d : Engine) : d = e ∨ d = e.other := by cases e <;> cases d <;> simp [other]

theorem waiting_iff (e : Engine) (s : State) : e.waiting s = true ↔ e.due s = true ∧ e.active s = true :=
  Bool.and_eq_true_iff

theorem active_beginTick (e : Engine) (s : State) : e.active (beginTick s) = e.active s := by
  cases e <;> simp [active, State.txActive, State.rxActive]

theorem due_taken (e : Engine) (s : State) : e.due (e.taken s) = false := by cases e <;> rfl

theorem due_other_taken (e : Engine) (s : State) : e.other.due (e.taken s) = e.other.due s := by cases e <;> rfl

/-- A tick is under way while one of the two engines waits. -/
theorem beginTick_of_waiting {e : Engine} {s : State} (h : e.waiting s = true) : beginTick s = s := by
  cases e with
  | tx => exact Machine.beginTick_of_waiting (.inl h)
  | rx => exact Machine.beginTick_of_waiting (.inr h)

/-- In a tick begun anew the active engines wait. -/
theorem beginTick_of_over {s : State} (h : ∀ e : Engine, ¬ e.waiting s = true) :
    beginTick s = { s with txDue := s.txActive, rxDue := s.rxActive } :=
  Machine.beginTick_of_over (not_or.2 ⟨h .tx, h .rx⟩)

theorem due_beginTick_of_over (e : Engine) {s : State} (h : ∀ e : Engine, ¬ e.waiting s = true) :
    e.due (beginTick s) = e.active s := by
  rw [beginTick_of_over h]
  cases e <;> rfl

theorem turn_of_waiting {e : Engine} {s : State} (h : e.waiting (beginTick s) = true) :
    e.turn s = .run (e.op s) (e.taken (beginTick s)) := by
  cases e with
  | tx => exact fetchTx_of_waiting h
  | rx => exact fetchRx_of_waiting h

theorem turn_of_none {e : Engine} {s : State} (h : ¬ e.waiting (beginTick s) = true) : e.turn s = .other s := by
  cases e with
  | tx => exact fetchTx_of_none h
  | rx => exact fetchRx_of_none h

/-- A turn in the tick under way. -/
theorem turn_of_due {e : Engine} {s : State} (h : e.waiting s = true) : e.turn s = .run (e.op s) (e.taken s) := by
  have sameTick := beginTick_of_waiting h
  rw [turn_of_waiting (by rwa [sameTick]), sameTick]

theorem turn_of_inactive {e : Engine} {s : State} (h : e.active s = false) : e.turn s = .other s :=
  turn_of_none fun w => by
    have := ((e.waiting_iff _).1 w).2
    rw [active_beginTick, h] at this
    cases this

/-- An engine that has taken its step has none until the other one has taken its own. -/
theorem turn_of_other_waiting {e : Engine} {s : State} (taken : e.due s = false) (h : e.other.waiting s = true) :
    e.turn s = .other s :=
  turn_of_none fun w => by
    rw [beginTick_of_waiting h] at w
    rw [((e.waiting_iff s).1 w).1] at taken
    cases taken

/-- A turn in a tick that is over begins the next. -/
theorem turn_of_over {e : Engine} {s : State} (ended : ∀ d : Engine, ¬ d.waiting s = true) (active : e.active s = true) :
    e.turn s = .run (e.op s) (e.taken { s with txDue := s.txActive, rxDue := s.rxActive }) := by
  rw [← beginTick_of_over ended]
  apply turn_of_waiting
  rw [waiting_iff, active_beginTick, due_beginTick_of_over e ended]
  exact ⟨active, active⟩

theorem not_waiting_of_taken {e : Engine} {s : State} (h : e.due s = false) : ¬ e.waiting s = true := fun w => by
  rw [((e.waiting_iff s).1 w).1] at h
  cases h

theorem not_waiting_of_inactive {e : Engine} {s : State} (h : e.active s = false) : ¬ e.waiting s = true := fun w => by
  rw [((e.waiting_iff s).1 w).2] at h
  cases h

theorem over_of_not_waiting {e : Engine} {s : State} (h : ¬ e.waiting s = true) (h' : ¬ e.other.waiting s = true)
    (d : Engine) : ¬ d.waiting s = true := by
  obtain rfl | rfl := e.eq_or_eq_other d
  · exact h
  · exact h'

/-- What an engine's turn runs, it runs only while the engine is active (R63). -/
theorem active_of_turn_run {e : Engine} {s u : State} {i : Instr} (h : e.turn s = .run i u) :
    e.active s = true ∧ i = e.op s := by
  by_cases w : e.waiting (beginTick s) = true
  · rw [turn_of_waiting w] at h
    injection h with hop
    exact ⟨e.active_beginTick s ▸ ((e.waiting_iff _).1 w).2, hop.symm⟩
  · rw [turn_of_none w] at h
    cases h

/-- Where an active engine waits in the tick at hand or, that one over, in the next. -/
theorem exists_waiting {e : Engine} {s : State} (active : e.active s = true) :
    ∃ d : Engine, d.waiting (beginTick s) = true := by
  by_cases under : ∃ d : Engine, d.waiting s = true
  · obtain ⟨d, w⟩ := under
    exact ⟨d, by rwa [beginTick_of_waiting w]⟩
  · have ended := not_exists.1 under
    refine ⟨e, ?_⟩
    rw [waiting_iff, active_beginTick, due_beginTick_of_over e ended]
    exact ⟨active, active⟩

end Engine

/-! ### Nothing scheduled -/

theorem beginTick_drawn (s : State) : beginTick (drawn s) = drawn (beginTick s) := by
  unfold beginTick
  rw [apply_ite drawn]
  rfl

/-- The scheduler's own choice is a turn of an engine that waits (R463). -/
theorem fetchFree_cases (s : State) :
    (∃ (e : Engine) (u : State), (u = s ∨ u = drawn s) ∧ e.waiting (beginTick u) = true ∧
        fetchFree s = e.turn u) ∨
      ((∀ e : Engine, ¬ e.waiting (beginTick s) = true) ∧ fetchFree s = .other s) := by
  have free : fetchFree s =
      if Engine.tx.waiting (beginTick s) = true then
        if Engine.rx.waiting (beginTick s) = true then
          if Config.freeBit s.draws 0 = true then Engine.tx.turn (drawn s) else Engine.rx.turn (drawn s)
        else Engine.tx.turn s
      else Engine.rx.turn s := rfl
  rw [free]
  by_cases tx : Engine.tx.waiting (beginTick s) = true <;> by_cases rx : Engine.rx.waiting (beginTick s) = true
  · rw [if_pos tx, if_pos rx]
    by_cases first : Config.freeBit s.draws 0 = true
    · rw [if_pos first]
      exact .inl ⟨.tx, drawn s, .inr rfl, by rw [beginTick_drawn]; exact tx, rfl⟩
    · rw [if_neg first]
      exact .inl ⟨.rx, drawn s, .inr rfl, by rw [beginTick_drawn]; exact rx, rfl⟩
  · rw [if_pos tx, if_neg rx]
    exact .inl ⟨.tx, s, .inl rfl, tx, rfl⟩
  · rw [if_neg tx]
    exact .inl ⟨.rx, s, .inl rfl, rx, rfl⟩
  · rw [if_neg tx]
    exact .inr ⟨Engine.over_of_not_waiting (e := .tx) tx rx, Engine.turn_of_none (e := .rx) rx⟩

end Sys2Proof.Machine

namespace Sys2Proof.Claims

open Sys2Proof.Machine

/-! ### A step on a slot of the schedule -/

theorem step_of_slot_run {s u : State} {slot : Slot} {rest : List Slot} {i : Instr} (running : Running s)
    (h : s.sched = slot :: rest) (hf : fetchSlot slot { s with sched := rest } = .run i u) : step s = exec i u :=
  step_of_run ((fetch_of_slot running.1 running.2 h).trans hf)

theorem step_of_slot_other {s u : State} {slot : Slot} {rest : List Slot} (running : Running s)
    (h : s.sched = slot :: rest) (hf : fetchSlot slot { s with sched := rest } = .other u) : step s = .next u :=
  step_of_other ((fetch_of_slot running.1 running.2 h).trans hf)

theorem envArrive_of_socket {s : State} (f : Frame) (socket : s.cfg.backend = .socket)
    (available : s.cfg.rxSourceAvailable = true) : envArrive f s = { s with sockq := s.sockq ++ [f] } := by
  rw [envArrive, socket]
  exact if_pos available

theorem envArrive_of_none {s : State} (f : Frame) (h : s.cfg.backend = .file ∨ s.cfg.rxSourceAvailable = false) :
    envArrive f s = s := by
  unfold envArrive
  split
  · rfl
  next socket =>
    have unavailable : s.cfg.rxSourceAvailable = false := h.resolve_left (by simp [socket])
    exact if_neg (by simp [unavailable])

/-- Settles O42: the slot is `envArrive`, in its two cases. -/
theorem frameArrivalQueuesTheFrame : Obligations.FrameArrivalQueuesTheFrame := by
  unfold Obligations.FrameArrivalQueuesTheFrame
  intro s f rest running hsched
  have arrives := step_of_slot_other running hsched rfl
  refine ⟨fun socket available => ?_, fun noSocket => ?_⟩
  · rw [arrives, envArrive_of_socket (s := { s with sched := rest }) f socket available]
  · rw [arrives, envArrive_of_none (s := { s with sched := rest }) f noSocket]

/-- Settles O50: the slot's code is the access's. -/
theorem stepRunsTheDecodedPortAccess : Obligations.StepRunsTheDecodedPortAccess := by
  unfold Obligations.StepRunsTheDecodedPortAccess
  exact fun s off v rest running => ⟨fun h => step_of_slot_run running h rfl, fun h => step_of_slot_run running h rfl⟩

theorem windowOffset_of_inside {cfg : Config} {addr : Word} {off : Nat} (h : addr.toNat = cfg.base.toNat + off)
    (inside : off < cfg.regionSize) : windowOffset cfg addr = some (BitVec.ofNat 16 off) := by
  rw [windowOffset, if_pos (by omega), h, Nat.add_sub_cancel_left]

theorem windowOffset_of_outside {cfg : Config} {addr : Word}
    (h : addr.toNat < cfg.base.toNat ∨ cfg.base.toNat + cfg.regionSize ≤ addr.toNat) :
    windowOffset cfg addr = none := if_neg (by omega)

theorem fetchBus_of_inside {acc : BusAccess} {s : State} {off : BitVec 16} (inside : windowOffset s.cfg acc.addr = some off)
    (width : acc.width = .w32) : fetchBus acc s = .run (decodeCode s.cfg (accessCode acc.dir off acc.data)) s := by
  rw [fetchBus, inside]
  dsimp only
  rw [width]

theorem fetchBus_of_width {acc : BusAccess} {s : State} {off : BitVec 16} (inside : windowOffset s.cfg acc.addr = some off)
    (width : acc.width ≠ .w32) : fetchBus acc s = .refuse .accessWidth := by
  rw [fetchBus, inside]
  dsimp only
  cases h : acc.width with
  | w32 => exact absurd h width
  | w8 | w16 => rfl

theorem fetchBus_of_outside {acc : BusAccess} {s : State} (outside : windowOffset s.cfg acc.addr = none) :
    fetchBus acc s = .other s := by
  rw [fetchBus, outside]

/-- Settles O51: the window gives the offset, the width says whether the access is run. -/
theorem busAccessIsRoutedByTheWindow : Obligations.BusAccessIsRoutedByTheWindow := by
  unfold Obligations.BusAccessIsRoutedByTheWindow
  intro s acc rest running _ hsched
  refine ⟨fun off haddr hoff => ?_, fun outside => ?_⟩
  · have inside := windowOffset_of_inside haddr hoff
    refine ⟨fun width dir => ?_, fun width dir => ?_, fun width => ?_⟩
    · have run := fetchBus_of_inside (s := { s with sched := rest }) inside width
      rw [dir] at run
      exact step_of_slot_run running hsched run
    · have run := fetchBus_of_inside (s := { s with sched := rest }) inside width
      rw [dir] at run
      exact step_of_slot_run running hsched run
    · have refused := (fetch_of_slot running.1 running.2 hsched).trans
        (fetchBus_of_width (s := { s with sched := rest }) inside width)
      rw [step, refused]
  · exact step_of_slot_other running hsched
      (fetchBus_of_outside (s := { s with sched := rest }) (windowOffset_of_outside outside))

/-! ### A turn of an engine -/

/-- Settles O52: a turn in the tick under way, of either engine. -/
theorem turnRunsTheEngineStep : Obligations.TurnRunsTheEngineStep := by
  unfold Obligations.TurnRunsTheEngineStep
  intro s rest running
  refine ⟨fun hsched due active => ?_, fun hsched due active => ?_⟩
  · have waits : Engine.tx.waiting { s with sched := rest } = true := (Engine.waiting_iff .tx _).2 ⟨due, active⟩
    exact step_of_slot_run running hsched (Engine.turn_of_due waits)
  · have waits : Engine.rx.waiting { s with sched := rest } = true := (Engine.waiting_iff .rx _).2 ⟨due, active⟩
    exact step_of_slot_run running hsched (Engine.turn_of_due waits)

/-- A turn slot of the engine `e` in the three patterns of R463 in which it is not plainly due. -/
theorem step_of_turn_slot {e : Engine} {s : State} {slot : Slot} {rest : List Slot} (running : Running s)
    (hslot : ∀ u, fetchSlot slot u = e.turn u) (hsched : s.sched = slot :: rest) :
    (e.active s = false → step s = .next { s with sched := rest }) ∧
    (e.due s = false → e.other.due s = true → e.other.active s = true → step s = .next { s with sched := rest }) ∧
    (e.due s = false → e.other.due s = false ∨ e.other.active s = false → e.active s = true →
      step s = exec (e.op s) (e.taken { s with sched := rest, txDue := s.txActive, rxDue := s.rxActive })) := by
  have due (d : Engine) : d.due { s with sched := rest } = d.due s := by cases d <;> rfl
  have active (d : Engine) : d.active { s with sched := rest } = d.active s := by cases d <;> rfl
  have op : e.op { s with sched := rest } = e.op s := by cases e <;> rfl
  refine ⟨fun inactive => ?_, fun took dueOther activeOther => ?_, fun took overOther act => ?_⟩
  · exact step_of_slot_other running hsched ((hslot _).trans (Engine.turn_of_inactive ((active e).trans inactive)))
  · have waits : e.other.waiting { s with sched := rest } = true :=
      (Engine.waiting_iff _ _).2 ⟨(due _).trans dueOther, (active _).trans activeOther⟩
    exact step_of_slot_other running hsched ((hslot _).trans (Engine.turn_of_other_waiting ((due e).trans took) waits))
  · have other : ¬ e.other.waiting { s with sched := rest } = true := by
      obtain h | h := overOther
      · exact Engine.not_waiting_of_taken ((due _).trans h)
      · exact Engine.not_waiting_of_inactive ((active _).trans h)
    have ended := Engine.over_of_not_waiting (Engine.not_waiting_of_taken ((due e).trans took)) other
    rw [← op]
    exact step_of_slot_run running hsched ((hslot _).trans (Engine.turn_of_over ended ((active e).trans act)))

/-! ### Nothing scheduled -/

/-- The next step is a turn of the engine `e`. -/
def Turn (e : Engine) (s : State) : Prop := ∃ u, TickOf s u ∧ step s = exec (e.op s) u

/-- Nothing is scheduled in a running machine. -/
def Free (s : State) : Prop := Running s ∧ s.sched = []

theorem tickOf_taken_beginTick (e : Engine) (s : State) : TickOf s (e.taken (beginTick s)) := by
  have same := sameDevice_beginTick s
  have hsched := beginTick_sched s
  generalize beginTick s = t at same hsched
  rw [SameDevice, hsched] at same
  rw [TickOf, same]
  cases e <;> rfl

theorem tickOf_taken_beginTick_drawn (e : Engine) (s : State) : TickOf s (e.taken (beginTick (drawn s))) := by
  have tick := tickOf_taken_beginTick e (drawn s)
  rw [TickOf] at tick ⊢
  exact tick

/-- Where nothing is scheduled and an engine is active, an engine that waits takes its turn; the other's step of the
tick stays as it was. -/
theorem step_of_free {s : State} (free : Free s) (some : ∃ e : Engine, e.waiting (beginTick s) = true) :
    ∃ (e : Engine) (u : State), e.waiting (beginTick s) = true ∧ TickOf s u ∧ step s = exec (e.op s) u ∧
      e.due u = false ∧ e.other.due u = e.other.due (beginTick s) := by
  obtain ⟨running, hsched⟩ := free
  have fetched := fetch_of_empty running.1 running.2 hsched
  obtain ⟨e, u, rfl | rfl, waits, turn⟩ | ⟨noTurn, -⟩ := fetchFree_cases s
  · rw [turn, Engine.turn_of_waiting waits] at fetched
    exact ⟨e, _, waits, tickOf_taken_beginTick e u, step_of_run fetched, e.due_taken _, e.due_other_taken _⟩
  · have op : e.op (drawn s) = e.op s := by cases e <;> rfl
    rw [turn, Engine.turn_of_waiting waits, op] at fetched
    rw [beginTick_drawn] at waits
    have waiting : e.waiting (beginTick s) = true := by cases e <;> exact waits
    refine ⟨e, _, waiting, tickOf_taken_beginTick_drawn e s, step_of_run fetched, e.due_taken _, ?_⟩
    rw [e.due_other_taken, beginTick_drawn]
    cases e <;> rfl
  · obtain ⟨e, waits⟩ := some
    exact absurd waits (noTurn e)

theorem step_of_free_inactive {s : State} (free : Free s) (inactive : ∀ e : Engine, e.active s = false) :
    step s = .next s := by
  have noTurn (e : Engine) : ¬ e.waiting (beginTick s) = true :=
    Engine.not_waiting_of_inactive ((e.active_beginTick s).trans (inactive e))
  obtain ⟨running, hsched⟩ := free
  obtain ⟨e, u, rfl | rfl, waits, -⟩ | ⟨-, other⟩ := fetchFree_cases s
  · exact absurd waits (noTurn e)
  · rw [beginTick_drawn] at waits
    exact absurd (by cases e <;> exact waits) (noTurn e)
  · exact step_of_other ((fetch_of_empty running.1 running.2 hsched).trans other)

/-- An active engine somewhere: some active engine takes its turn. -/
theorem turn_of_free {e : Engine} {s : State} (free : Free s) (active : e.active s = true) :
    ∃ d : Engine, d.active s = true ∧ Turn d s := by
  obtain ⟨d, u, waits, tick, run, -⟩ := step_of_free free (Engine.exists_waiting active)
  exact ⟨d, d.active_beginTick s ▸ ((d.waiting_iff _).1 waits).2, u, tick, run⟩

/-- Settles O53: the three patterns of a turn, for each engine; the `tick` slot is `beginTick`; and where nothing is
scheduled an active engine takes its turn. -/
theorem eachTickGivesAnActiveEngineOneStep : Obligations.EachTickGivesAnActiveEngineOneStep := by
  unfold Obligations.EachTickGivesAnActiveEngineOneStep
  intro s rest running
  refine ⟨step_of_turn_slot (e := .tx) running fun _ => rfl, step_of_turn_slot (e := .rx) running fun _ => rfl,
    fun hsched => ⟨fun under => ?_, fun ended => ?_⟩, fun hsched => ⟨fun noTx noRx => ?_, fun active => ?_⟩⟩
  · have waits : { s with sched := rest }.txWaiting = true ∨ { s with sched := rest }.rxWaiting = true :=
      under.imp Bool.and_eq_true_iff.2 Bool.and_eq_true_iff.2
    rw [step_of_slot_other running hsched rfl, Machine.beginTick_of_waiting waits]
  · have tickOver : ¬ ({ s with sched := rest }.txWaiting = true ∨ { s with sched := rest }.rxWaiting = true) :=
      fun waits => ended (waits.imp Bool.and_eq_true_iff.1 Bool.and_eq_true_iff.1)
    rw [step_of_slot_other running hsched rfl, Machine.beginTick_of_over tickOver]
    rfl
  · exact step_of_free_inactive ⟨running, hsched⟩ fun e => by cases e <;> assumption
  · obtain ⟨e, act⟩ : ∃ e : Engine, e.active s = true := active.elim (fun h => ⟨.tx, h⟩) fun h => ⟨.rx, h⟩
    obtain ⟨d, act', turn⟩ := turn_of_free ⟨running, hsched⟩ act
    cases d with
    | tx => exact .inl ⟨act', turn⟩
    | rx => exact .inr ⟨act', turn⟩

/-! ### Fairness -/

/-- `t` is as `s` in what decides whose turn comes next, the stop request left out. -/
structure SameTurn (s t : State) : Prop where
  fault : t.fault = s.fault
  sched : t.sched = s.sched
  due : ∀ e : Engine, e.due t = e.due s
  active : ∀ e : Engine, e.active t = e.active s

theorem sameTurn_of_eq {s t : State} (fault : t.fault = s.fault) (sched : t.sched = s.sched) (txDue : t.txDue = s.txDue)
    (rxDue : t.rxDue = s.rxDue) (moder : t.regs.moder = s.regs.moder) : SameTurn s t where
  fault := fault
  sched := sched
  due e := by cases e <;> assumption
  active e := by cases e <;> simp only [Engine.active, State.txActive, State.rxActive, moder]

/-- No operation but a MODER write changes whose turn comes next. -/
theorem Effect.sameTurn {i : Instr} {s t : State} (h : Effect s i t) (other : ∀ v, i ≠ .wrModer v) : SameTurn s t := by
  cases h with
  | plain r v plain =>
    exact sameTurn_of_eq rfl rfl rfl rfl (s.regs.get_set_other (q := .moder) v fun e => plain (.inl e.symm))
  | reset v | moder v => exact absurd rfl (other v)
  | _ => exact sameTurn_of_eq rfl rfl rfl rfl rfl

theorem op_ne_wrModer (e : Engine) (s : State) (v : Word) : e.op s ≠ .wrModer v := by
  cases e with
  | tx => cases h : s.tx.state <;> simp [Engine.op, h, txCode, decodeTx]
  | rx =>
    cases h : s.rx.state with
    | recv => cases h' : s.cfg.backend <;> simp [Engine.op, h, h', rxCode, decodeRx]
    | idle | waitBd | writeFifo => simp [Engine.op, h, rxCode, decodeRx]

/-- Where nothing is scheduled, an active engine has its turn, or the other one has, after which the other has no step
left of the tick and the engine's own step of it is as it was. -/
theorem turn_or_other {e : Engine} {s : State} (free : Free s) (active : e.active s = true) :
    Turn e s ∨ (Turn e.other s ∧ ∀ t, step s = .next t → t.stop = false →
      Free t ∧ e.active t = true ∧ e.other.due t = false ∧ e.due t = e.due (beginTick s)) := by
  obtain ⟨d, u, -, tick, run, took, kept⟩ := step_of_free free (Engine.exists_waiting active)
  obtain rfl | rfl := e.eq_or_eq_other d
  · exact .inl ⟨u, tick, run⟩
  · refine .inr ⟨⟨u, tick, run⟩, fun t ht stop => ?_⟩
    have same := (exec_effect (run.symm.trans ht)).sameTurn (op_ne_wrModer e.other s)
    have hfault : u.fault = s.fault := by rw [tick]
    have hsched : u.sched = s.sched := by rw [tick]
    have hactive : e.active u = e.active s := by
      rw [tick]
      cases e <;> rfl
    rw [Engine.other_other] at kept
    exact ⟨⟨⟨stop, same.fault.trans (hfault.trans free.1.2)⟩, same.sched.trans (hsched.trans free.2)⟩,
      (same.active e).trans (hactive.trans active), (same.due e.other).trans took, (same.due e).trans kept⟩

/-- An engine that alone waits has the turn. -/
theorem turn_of_alone {e : Engine} {s : State} (free : Free s) (active : e.active s = true) (due : e.due s = true)
    (other : e.other.due s = false) : Turn e s := by
  have waits : e.waiting s = true := (e.waiting_iff s).2 ⟨due, active⟩
  have sameTick := Engine.beginTick_of_waiting waits
  obtain ⟨d, u, waits', tick, run, -⟩ := step_of_free free ⟨e, by rwa [sameTick]⟩
  rw [sameTick] at waits'
  obtain rfl | rfl := e.eq_or_eq_other d
  · exact ⟨u, tick, run⟩
  · exact absurd waits' (Engine.not_waiting_of_taken other)

/-- An active engine whose companion has taken its step of the tick has its turn within two steps. -/
theorem turn_within_two {e : Engine} {s : State} (free : Free s) (active : e.active s = true)
    (other : e.other.due s = false) :
    Turn e s ∨ (Turn e.other s ∧ ∀ t, step s = .next t → t.stop = false → Turn e t) := by
  cases due : e.due s with
  | true => exact .inl (turn_of_alone free active due other)
  | false =>
    obtain turn | ⟨turn, next⟩ := turn_or_other free active
    · exact .inl turn
    · refine .inr ⟨turn, fun t ht stop => ?_⟩
      obtain ⟨free', active', other', kept⟩ := next t ht stop
      have ended := Engine.over_of_not_waiting (Engine.not_waiting_of_taken due) (Engine.not_waiting_of_taken other)
      rw [e.due_beginTick_of_over ended] at kept
      exact turn_of_alone free' active' (kept.trans active) other'

theorem turn_within_three {e : Engine} {s : State} (free : Free s) (active : e.active s = true) :
    Turn e s ∨ (Turn e.other s ∧ ∀ t, step s = .next t → t.stop = false →
      Turn e t ∨ (Turn e.other t ∧ ∀ u, step t = .next u → u.stop = false → Turn e u)) := by
  obtain turn | ⟨turn, next⟩ := turn_or_other free active
  · exact .inl turn
  · refine .inr ⟨turn, fun t ht stop => ?_⟩
    obtain ⟨free', active', other', -⟩ := next t ht stop
    exact turn_within_two free' active' other'

/-- Settles O54: the argument is the same for both engines. -/
theorem activeEngineStepsWithinThreeSteps : Obligations.ActiveEngineStepsWithinThreeSteps := by
  unfold Obligations.ActiveEngineStepsWithinThreeSteps
  intro s running hsched
  exact ⟨turn_within_three (e := .tx) ⟨running, hsched⟩, turn_within_three (e := .rx) ⟨running, hsched⟩⟩

/-! ### What a fetch runs -/

theorem not_engineStep_readOf (r : Reg) : ¬ IsTxStep (readOf r) ∧ ¬ IsRxStep (readOf r) := by
  cases r <;> simp [readOf, IsTxStep, IsRxStep]

theorem not_engineStep_writeOf (r : Reg) (v : Word) : ¬ IsTxStep (writeOf r v) ∧ ¬ IsRxStep (writeOf r v) := by
  cases r <;> simp [writeOf, IsTxStep, IsRxStep]

/-- No bus access decodes to an engine's step (R141, R142). -/
theorem not_engineStep_access (cfg : Config) (dir : Dir) (off : BitVec 16) (v : Word) :
    ¬ IsTxStep (decodeCode cfg (accessCode dir off v)) ∧ ¬ IsRxStep (decodeCode cfg (accessCode dir off v)) := by
  obtain ⟨r, rfl⟩ | unmapped | ⟨aligned, above, window⟩ := offset_cases cfg off
  · cases dir
    · simpa only [accessCode, decodeCode, decodeRead_offsetOf] using not_engineStep_readOf r
    · simpa only [accessCode, decodeCode, decodeWrite_offsetOf] using not_engineStep_writeOf r v
  · obtain ⟨hread, hwrite⟩ := decode_of_unmapped v unmapped
    cases dir <;> simp [accessCode, decodeCode, hread, hwrite, IsTxStep, IsRxStep]
  · obtain ⟨hread, hwrite⟩ := decode_in_descriptor_window v aligned above window
    cases dir <;> simp [accessCode, decodeCode, hread, hwrite, IsTxStep, IsRxStep]

theorem not_rxStep_op_tx (s : State) : ¬ IsRxStep (Engine.tx.op s) := by
  cases h : s.tx.state <;> simp [Engine.op, h, txCode, decodeTx, IsRxStep]

theorem not_txStep_op_rx (s : State) : ¬ IsTxStep (Engine.rx.op s) := by
  cases h : s.rx.state with
  | recv => cases h' : s.cfg.backend <;> simp [Engine.op, h, h', rxCode, decodeRx, IsTxStep]
  | idle | waitBd | writeFifo => simp [Engine.op, h, rxCode, decodeRx, IsTxStep]

/-- An engine's step is run by that engine's turn, in the machine's state but for the model's own fields; every other
operation is a bus access. -/
theorem fetch_run_cases {s u : State} {i : Instr} (h : fetch s = .run i u) :
    (¬ IsTxStep i ∧ ¬ IsRxStep i) ∨ ∃ e : Engine, e.active s = true ∧ ∃ t, i = e.op t := by
  unfold fetch at h
  split at h
  · cases h
  · split at h
    · cases h
    · split at h
      · obtain ⟨e, v, rfl | rfl, -, turn⟩ | ⟨-, other⟩ := fetchFree_cases s
        · obtain ⟨active, hop⟩ := Engine.active_of_turn_run (turn.symm.trans h)
          exact .inr ⟨e, active, _, hop⟩
        · obtain ⟨active, hop⟩ := Engine.active_of_turn_run (turn.symm.trans h)
          exact .inr ⟨e, by cases e <;> exact active, _, hop⟩
        · rw [other] at h
          cases h
      next slot rest hsched =>
        cases slot with
        | bus acc =>
          simp only [fetchSlot, fetchBus] at h
          split at h
          · cases h
          · split at h
            · injection h with hi
              exact .inl (hi ▸ not_engineStep_access s.cfg acc.dir _ acc.data)
            · cases h
            · cases h
        | port dir off v =>
          injection h with hi
          exact .inl (hi ▸ not_engineStep_access s.cfg dir off v)
        | txTurn =>
          obtain ⟨active, hop⟩ := Engine.active_of_turn_run (e := .tx) h
          exact .inr ⟨.tx, active, _, hop⟩
        | rxTurn =>
          obtain ⟨active, hop⟩ := Engine.active_of_turn_run (e := .rx) h
          exact .inr ⟨.rx, active, _, hop⟩
        | tick | arrive | store => cases h

/-- Settles O55: a bus access is no engine's step, and a turn runs one of its own engine, which is active. -/
theorem enginesStepOnlyWhileEnabled : Obligations.EnginesStepOnlyWhileEnabled := by
  unfold Obligations.EnginesStepOnlyWhileEnabled
  intro s u i h
  obtain ⟨noTx, noRx⟩ | ⟨e, active, t, rfl⟩ := fetch_run_cases h
  · exact ⟨fun hi => absurd hi noTx, fun hi => absurd hi noRx⟩
  · cases e with
    | tx => exact ⟨fun _ => active, fun hi => absurd hi (not_rxStep_op_tx t)⟩
    | rx => exact ⟨fun hi => absurd hi (not_txStep_op_rx t), fun _ => active⟩

/-! ### Halt and construction -/

theorem step_of_stop {s : State} (h : s.stop = true) : step s = .fault .stopped :=
  step_of_halt (if_pos h)

theorem step_of_fault {s : State} {f : DevFault} (hs : s.stop = false) (h : s.fault = some f) :
    step s = .fault (.faulted f) :=
  step_of_halt (by simp [fetch, hs, h])

/-- Only a running machine raises a fault. -/
theorem running_of_raised {s : State} {f : DevFault} (h : step s = .fault (.raised f)) : Running s := by
  cases hs : s.stop with
  | true => rw [step_of_stop hs] at h; cases h
  | false =>
    cases hf : s.fault with
    | some g => rw [step_of_fault hs hf] at h; cases h
    | none => exact ⟨hs, hf⟩

/-- Settles O56: a halted machine fetches nothing, and a fault is raised in a running one alone, whose first it is. -/
theorem haltedMachineTakesNoStep : Obligations.HaltedMachineTakesNoStep := by
  unfold Obligations.HaltedMachineTakesNoStep
  refine fun s => ⟨fun halted => ?_, fun f h => ?_⟩
  · cases hs : s.stop with
    | true => exact ⟨_, step_of_stop hs⟩
    | false =>
      obtain ⟨f, hf⟩ := Option.isSome_iff_exists.1 (halted.resolve_left (by simp [hs]))
      exact ⟨_, step_of_fault hs hf⟩
  · have first : s.fault = none := (running_of_raised h).2
    have rest : restAfter s (step s) = { s with fault := some f, history := s.history ++ [.fault f] } := by
      rw [h, restAfter, State.afterFault, first]
      rfl
    exact ⟨by rw [rest]; exact .inr rfl, rest⟩

theorem macAddr0AtConstruction_toNat (cfg : Config) :
    (macAddr0AtConstruction cfg).toNat = cfg.macAddress.toNat % 2 ^ 32 := by
  simp [macAddr0AtConstruction, BitVec.extractLsb'_toNat]

theorem macAddr1AtConstruction_toNat (cfg : Config) :
    (macAddr1AtConstruction cfg).toNat = cfg.macAddress.toNat / 2 ^ 32 := by
  have := cfg.macAddress.isLt
  rw [macAddr1AtConstruction, BitVec.toNat_setWidth, BitVec.extractLsb'_toNat, Nat.shiftRight_eq_div_pow]
  omega

theorem constructionFault_of_setup {cfg : Config} (h : ¬ (cfg.backend = .socket ∧ cfg.socketSetupFatal = true)) :
    constructionFault cfg = none := if_neg h

/-- Settles O57: the fields of `State.construct`. -/
theorem constructedDeviceHoldsResetValues : Obligations.ConstructedDeviceHoldsResetValues := by
  unfold Obligations.ConstructedDeviceHoldsResetValues
  rintro cfg s rfl
  refine ⟨rfl, fun r x => get_afterReset, macAddr0AtConstruction_toNat cfg, macAddr1AtConstruction_toNat cfg,
    bdRamAfterReset_length cfg 0, eq_zero_of_mem_bdRamAfterReset, rfl, rfl, rfl, rfl, rfl, rfl, rfl, rfl, rfl, rfl, rfl,
    rfl, rfl, rfl, rfl, rfl, rfl, rfl, fun setup => ?_⟩
  have noFault := constructionFault_of_setup setup
  exact ⟨noFault, by rw [State.construct, noFault]; rfl⟩

end Sys2Proof.Claims

/-! SUPPORT. What each step of the transmit engine leaves, and the obligations about one of its steps (R262 to R269,
R104, R111). -/

namespace Sys2Proof.Machine

/-! ### Words with a mask of bits cleared -/

theorem getLsbD_and_not (w m : Word) (k : Nat) : (w &&& ~~~m).getLsbD k = (w.getLsbD k && !m.getLsbD k) :=
  getLsbD_writeOneToClear w m k

/-! ### WAIT_BD -/

theorem execTxWaitBd_of_error {s : State} {f : DevFault} (h : bdReadPair .tx s.tx.idx s = .error f) :
    exec .txWaitBd s = .fault (.raised f) := by
  rw [exec_txWaitBd, execTxWaitBd, h]
  rfl

theorem execTxWaitBd_of_ok {s : State} {w0 w1 : Word} (h : bdReadPair .tx s.tx.idx s = .ok (w0, w1)) :
    exec .txWaitBd s = .next (txSnapshot w0 w1 s) := by
  rw [exec_txWaitBd, execTxWaitBd, h]

theorem execTxWaitBd_word0_outside {s : State} (h : s.bd.length ≤ s.tx.idx.toNat) :
    exec .txWaitBd s = .fault (.raised (.bdIndexOutOfRange .tx s.tx.idx.toNat)) :=
  execTxWaitBd_of_error (bdReadPair_error.2 (.inl ⟨h, rfl⟩))

theorem execTxWaitBd_word1_outside {s : State} (h0 : s.tx.idx.toNat < s.bd.length)
    (h1 : s.bd.length ≤ (s.tx.idx + 1).toNat) :
    exec .txWaitBd s = .fault (.raised (.bdIndexOutOfRange .tx (s.tx.idx + 1).toNat)) :=
  execTxWaitBd_of_error (bdReadPair_error.2 (.inr ⟨h0, h1, rfl⟩))

/-- The index after one that is not the last below 2^32. -/
theorem toNat_add_one {idx : Word} {n : Nat} (h : idx.toNat + 1 = n) (hn : n < 2 ^ 32) :
    (idx + 1).toNat = idx.toNat + 1 := by
  bv_omega

/-! ### DMA -/

/-- A step of four bytes from a misaligned address stays misaligned. -/
theorem aligned4_add_of_misaligned {a : Word} {n : Nat} (hn : n % 4 = 0) (ha : a.toNat % 4 ≠ 0) :
    aligned4 (a + BitVec.ofNat 32 n) = false := by
  rw [Bool.eq_false_iff, Ne, aligned4_iff, BitVec.toNat_add, BitVec.toNat_ofNat]
  omega

theorem aligned4_add {a : Word} {n : Nat} (hn : n % 4 = 0) (ha : a.toNat % 4 = 0) :
    aligned4 (a + BitVec.ofNat 32 n) = true := by
  rw [aligned4_iff, BitVec.toNat_add, BitVec.toNat_ofNat]
  omega

/-! ### READ_FIFO -/

theorem execTxReadFifo_of_nothing_left {s : State} (h : s.tx.len.toNat ≤ s.tx.sent) :
    exec .txReadFifo s = .next { s with tx := { s.tx with state := .transmit } } :=
  execTxReadFifo_of_staged (Nat.not_lt.2 h)

theorem execTxReadFifo_of_admitted {s : State} (left : s.tx.sent < s.tx.len.toNat)
    (aligned : aligned4 (txDmaAddr s) = true) (admitted : admitsWord s.cfg (txDmaAddr s) = true) :
    exec .txReadFifo s = .next (txStage s) := by
  rw [exec_txReadFifo, execTxReadFifo_of_unstaged left, dmaStep_admitted aligned admitted]

/-- The bytes left after a word is staged, none where it was the last. -/
theorem txStage_left (s : State) : (txStage s).tx.left = s.tx.len.toNat - (s.tx.sent + 4) := by
  change s.tx.len.toNat - min (s.tx.sent + 4) s.tx.len.toNat = _
  omega

/-! ### TRANSMIT -/

theorem execTxTransmit_of_inside {s : State} (inside : s.tx.idx.toNat < s.bd.length) :
    exec .txTransmit s = .next (txComplete s) := if_pos inside

end Sys2Proof.Machine

namespace Sys2Proof.Claims

open Sys2Proof.Machine

/-! ### Words with bits cleared -/

theorem clearedAt_of_mask {ks : List Nat} {m : Word} (w : Word) (h : ∀ k < 32, m.getLsbD k = ks.contains k) :
    ClearedAt ks w (w &&& ~~~m) := by
  intro k
  rw [getLsbD_and_not]
  by_cases hk : k < 32
  · rw [h k hk]
  · rw [BitVec.getLsbD_of_ge w k (Nat.le_of_not_lt hk), Bool.false_and, Bool.false_and]

theorem clearedAt_clearTxErrors (w : Word) : ClearedAt [0, 1, 2, 3, 4, 5, 6, 7, 8] w (clearTxErrors w) :=
  clearedAt_of_mask w (by decide)

theorem clearedAt_txWriteBack_full (w : Word) : ClearedAt [15] w (txWriteBack true w) := by
  intro k
  rw [getLsbD_txWriteBack_full]
  simp [eq_comm]

theorem clearedAt_txWriteBack_short (w : Word) : ClearedAt [2, 15] w (txWriteBack false w) := by
  intro k
  rw [getLsbD_txWriteBack_short, Bool.and_assoc]
  simp [eq_comm, Bool.and_comm]

/-! ### WAIT_BD -/

theorem execTxWaitBd_of_descriptor {s : State} {w0 w1 : Word} (h : DescriptorAt s s.tx.idx w0 w1) :
    exec .txWaitBd s = .next (txSnapshot w0 w1 s) :=
  execTxWaitBd_of_ok (bdReadPair_ok.2 h)

theorem execTxWaitBd_of_ready {s : State} {w0 w1 : Word} (h : DescriptorAt s s.tx.idx w0 w1)
    (ready : bdReady w0 = true) :
    exec .txWaitBd s = .next { s with tx := txTake w0 w1 s, txs := loggedTxs (bdLen w0).toNat s } := by
  rw [execTxWaitBd_of_descriptor h, txSnapshot_of_ready w1 s ready]

/-- Settles O15: the snapshot of a descriptor that is not ready. -/
theorem txWaitBdPollsUntilReady : Obligations.TxWaitBdPollsUntilReady := by
  unfold Obligations.TxWaitBdPollsUntilReady
  intro s w0 w1 found notReady
  refine ⟨_, execTxWaitBd_of_descriptor found, ?_⟩
  rw [txSnapshot_of_not_ready w1 s notReady]
  exact ⟨rfl, rfl, rfl⟩

theorem txMinLen_toNat (w0 : Word) (regs : RegFile) :
    (txMinLen w0 regs).toNat =
      if w0.getLsbD 12 = true ∨ regs.moder.getLsbD 15 = true then regs.packetLen.toNat / 2 ^ 16
      else w0.toNat / 2 ^ 16 := by
  rw [txMinLen, apply_ite BitVec.toNat, minFl_toNat, bdLen_toNat]
  rfl

theorem txMaxLen_toNat (regs : RegFile) :
    (txMaxLen regs).map BitVec.toNat =
      if regs.moder.getLsbD 14 = true then none else some (regs.packetLen.toNat % 2 ^ 16) := by
  rw [txMaxLen, apply_ite (Option.map BitVec.toNat), Option.map_some, maxFl_toNat]
  rfl

/-- Settles O16: the snapshot of a ready descriptor, field by field. -/
theorem txWaitBdTakesReadyDescriptor : Obligations.TxWaitBdTakesReadyDescriptor := by
  unfold Obligations.TxWaitBdTakesReadyDescriptor
  intro s w0 w1 found ready
  rw [← bdLen_toNat]
  refine ⟨_, execTxWaitBd_of_ready found ready, rfl, rfl, rfl, rfl, rfl, clearedAt_clearTxErrors w0, ?_,
    txMaxLen_toNat s.regs, rfl, rfl, rfl, rfl, rfl, rfl⟩
  rw [bdLen_toNat]
  exact txMinLen_toNat w0 s.regs

/-- Settles O17: `bdReadPair` fails on the first word outside. -/
theorem waitBdFaultsOutsideTheRam : Obligations.WaitBdFaultsOutsideTheRam := by
  unfold Obligations.WaitBdFaultsOutsideTheRam
  intro s bound
  refine ⟨execTxWaitBd_word0_outside, fun last => ?_, execRxWaitBd_word0_outside, fun last => ?_⟩
  · have next := toNat_add_one last bound
    rw [← next]
    exact execTxWaitBd_word1_outside (by omega) (by omega)
  · have next := toNat_add_one last bound
    rw [← next]
    exact execRxWaitBd_word1_outside (by omega) (by omega)

/-! ### READ_FIFO -/

/-- The bytes of the word at an address are the four bytes there, in order (R102). -/
theorem wordBytes_readWord (m : List Host.Cell) (a : Word) : wordBytes (Memory.readWord m a) = bytesAt m a 4 := by
  have first : a + BitVec.ofNat 32 0 = a := BitVec.add_zero a
  rw [Memory.readWord, wordBytes_wordOfBytes]
  change _ = [Memory.read m (a + BitVec.ofNat 32 0).toNat, Memory.read m (a + 1).toNat, Memory.read m (a + 2).toNat,
    Memory.read m (a + 3).toNat]
  rw [first]

/-- Staging a word appends the four bytes at its address. -/
theorem take_txStage_fifo {s : State} (staged : s.tx.sent ≤ s.tx.fifo.length) :
    (txStage s).tx.fifo.take (s.tx.sent + 4) = s.tx.fifo.take s.tx.sent ++ bytesAt s.mem (txDmaAddr s) 4 := by
  rw [← wordBytes_readWord]
  exact take_fifoWrite (wordBytes (Memory.readWord s.mem (txDmaAddr s))) s.draws staged

/-- Settles O18: the step is `txStage`, the move to TRANSMIT, or no step. -/
theorem txReadFifoStagesOneWordUntilNothingIsLeft : Obligations.TxReadFifoStagesOneWordUntilNothingIsLeft := by
  unfold Obligations.TxReadFifoStagesOneWordUntilNothingIsLeft
  refine fun s => ⟨fun left staged aligned admitted => ?_, fun done => ?_, fun left aligned refused => ?_⟩
  · refine ⟨_, execTxReadFifo_of_admitted left ((aligned4_iff _).2 aligned) admitted, rfl, txStage_left s,
      take_txStage_fifo staged, fun last => if_pos last, fun more => if_neg more, ?_, rfl⟩
    exact ⟨_, wordBytes_readWord s.mem (txDmaAddr s), rfl⟩
  · exact ⟨_, execTxReadFifo_of_nothing_left done, rfl, rfl⟩
  · rw [exec_txReadFifo, execTxReadFifo_of_unstaged left, dmaStep_refused ((aligned4_iff _).2 aligned) refused]

/-- Settles O19: the DMA step of either engine faults before its access; with nothing left there is none. -/
theorem misalignedBufferFaultsBothEngines : Obligations.MisalignedBufferFaultsBothEngines := by
  unfold Obligations.MisalignedBufferFaultsBothEngines
  refine fun s => ⟨fun words misaligned left => ?_, fun done => ?_, fun words misaligned => ?_⟩
  · rw [exec_txReadFifo, execTxReadFifo_of_unstaged left]
    exact dmaStep_misaligned (aligned4_add_of_misaligned words misaligned)
  · exact ⟨_, execTxReadFifo_of_nothing_left done, rfl, rfl⟩
  · exact dmaStep_misaligned (aligned4_add_of_misaligned words misaligned)

/-! ### TRANSMIT -/

theorem sendAccepted_iff (s : State) : sendAccepted s = true ↔ Accepts s := by
  unfold sendAccepted Accepts
  cases s.cfg.backend <;> simp

theorem txIrqEnabled_iff (full : Bool) (s : State) :
    txIrqEnabled (txEvent full) s = true ↔ TxEnabled s (intBit (txEvent full)) := by
  unfold txIrqEnabled TxEnabled
  cases s.cfg.txIrqMaskPolicy
  · rfl
  · exact Bool.or_eq_true_iff

/-- The write-back leaves every bit but LC and RD. -/
theorem getLsbD_txWriteBack_kept (full : Bool) (w : Word) {k : Nat} (notLc : k ≠ 2) (notRd : k ≠ 15) :
    (txWriteBack full w).getLsbD k = w.getLsbD k := by
  cases full
  · rw [getLsbD_txWriteBack_short]
    simp [notLc.symm, notRd.symm]
  · rw [getLsbD_txWriteBack_full]
    simp [notRd.symm]

/-- What a signalled event leaves of the line and the history, under the condition and without it (R404, R406). -/
theorem signalled_line {P : Prop} {line : Bool} (src : IntSrc) (s : State) (h : line = true ↔ P) :
    (P → (signalled src line s).irq = true ∧ (signalled src line s).history = s.history ++ [.irqAssert]) ∧
      (¬ P → (signalled src line s).irq = s.irq ∧ (signalled src line s).history = s.history) := by
  refine ⟨fun asserted => ?_, fun silent => ?_⟩
  · obtain rfl := h.2 asserted
    exact ⟨rfl, rfl⟩
  · obtain rfl : line = false := Bool.eq_false_iff.2 (mt h.1 silent)
    exact ⟨rfl, List.append_nil _⟩

theorem signalled_regs (src : IntSrc) (line : Bool) (s : State) :
    SetAt (intBit src) s.regs.intSource (signalled src line s).regs.intSource ∧
      ∀ q, q ≠ .intSource → (signalled src line s).regs.get q = s.regs.get q :=
  ⟨setAt_setBit _ (intBit_lt src), fun _ hq => s.regs.get_set_other (r := .intSource) _ hq⟩

/-- The condition under which the end of a TX frame asserts the line (R269, R404). -/
theorem txLine_iff (full : Bool) (s : State) :
    (txIrqEnabled (txEvent full) s && bdIrq (txWriteBack full s.tx.bd)) = true ↔
      TxEnabled s (intBit (txEvent full)) ∧ s.tx.bd.getLsbD 14 = true := by
  have irq : bdIrq (txWriteBack full s.tx.bd) = s.tx.bd.getLsbD 14 :=
    getLsbD_txWriteBack_kept full s.tx.bd (by decide) (by decide)
  rw [Bool.and_eq_true_iff, txIrqEnabled_iff, irq]

/-- What the end of a TX frame leaves, whatever the event (R267, R268, R404). -/
theorem txFinished_spec (full : Bool) {s : State} (inside : s.tx.idx.toNat < s.bd.length) :
    (txFinished full s).bd[s.tx.idx.toNat]? = some (txFinished full s).tx.bd ∧
      (∀ j, j ≠ s.tx.idx.toNat → (txFinished full s).bd[j]? = s.bd[j]?) ∧
      (txFinished full s).tx.idx =
        (if s.tx.bd.getLsbD 13 = true ∨ s.cfg.wrapLimit ≤ s.tx.idx.toNat then 0 else s.tx.idx + 2) := by
  have wrap : bdWrap (txWriteBack full s.tx.bd) = s.tx.bd.getLsbD 13 :=
    getLsbD_txWriteBack_kept full s.tx.bd (by decide) (by decide)
  refine ⟨List.getElem?_set_self inside, fun j hj => List.getElem?_set_ne hj.symm, ?_⟩
  change nextTx s.cfg s.tx.idx (bdWrap (txWriteBack full s.tx.bd)) = _
  rw [wrap, nextTx]

/-- Settles O20: the frame handed over is the one staged, and the rest is the end of a frame sent whole. -/
theorem txTransmitSendsTheFrame : Obligations.TxTransmitSendsTheFrame := by
  unfold Obligations.TxTransmitSendsTheFrame
  intro s inside staged accepts
  have frame : txFrame s = s.tx.fifo.take s.tx.len.toNat := fifoTake_of_staged s.draws staged
  have run := execTxTransmit_of_inside inside
  rw [txComplete_of_accepted ((sendAccepted_iff s).2 accepts), frame] at run
  generalize s.tx.fifo.take s.tx.len.toNat = p at run
  obtain ⟨written, others, idx⟩ := txFinished_spec true (s := handedOver p s) inside
  obtain ⟨asserted, silent⟩ := signalled_line .txb (handedOver p s) (txLine_iff true s)
  obtain ⟨source, registers⟩ := signalled_regs .txb true s
  refine ⟨_, run, clearedAt_txWriteBack_full s.tx.bd, written, others, source, registers, fun line => ?_, fun line => ?_,
    idx, rfl, fun file => ?_, fun socket => ?_, rfl⟩
  · obtain ⟨irq, hist⟩ := asserted line
    exact ⟨irq, hist.trans (List.append_assoc _ _ _)⟩
  · exact silent line
  · exact ⟨if_pos file, if_neg (by simp [file])⟩
  · exact ⟨if_neg (by simp [socket]), if_pos socket⟩

/-- Settles O21: nothing is handed over; the frame is a short write unless it is empty. -/
theorem txTransmitShortWrite : Obligations.TxTransmitShortWrite := by
  unfold Obligations.TxTransmitShortWrite
  intro s inside refused
  have run := execTxTransmit_of_inside inside
  rw [txComplete_of_refused (Bool.eq_false_iff.2 (mt (sendAccepted_iff s).1 refused))] at run
  have empty : (0 == s.tx.len.toNat) = true ↔ s.tx.len = 0 := by
    rw [beq_iff_eq, eq_comm, ← BitVec.toNat_inj]
    rfl
  obtain ⟨written, others, idx⟩ := txFinished_spec (0 == s.tx.len.toNat) inside
  refine ⟨_, run, fun nonempty => ?_, fun isEmpty => ?_, written, others, ?_, idx, rfl, rfl⟩
  · rw [Bool.eq_false_iff.2 (mt empty.1 nonempty)]
    exact ⟨clearedAt_txWriteBack_short s.tx.bd, (signalled_regs .txe true s).1, signalled_line .txe s (txLine_iff false s)⟩
  · rw [empty.2 isEmpty]
    exact ⟨clearedAt_txWriteBack_full s.tx.bd, (signalled_regs .txb true s).1, signalled_line .txb s (txLine_iff true s)⟩
  · exact (signalled_regs (txEvent _) true s).2

end Sys2Proof.Claims

/-! SUPPORT. Runs of the transmit engine: the words of a frame staged one by one, and the obligations that the frame
staged is the buffer in memory and that it is sent and written back (R264, R270, R273). -/

namespace Sys2Proof.Claims

open Sys2Proof.Machine

/-! ### The bytes at an address -/

theorem bytesAt_length (m : List Host.Cell) (a : Word) (n : Nat) : (bytesAt m a n).length = n := by
  rw [bytesAt, List.length_map, List.length_range]

theorem bytesAt_add (m : List Host.Cell) (a : Word) (n k : Nat) :
    bytesAt m a (n + k) = bytesAt m a n ++ bytesAt m (a + BitVec.ofNat 32 n) k := by
  simp only [bytesAt, List.range_add, List.map_append, List.map_map, Function.comp_def, BitVec.ofNat_add,
    BitVec.add_assoc]

theorem take_bytesAt (m : List Host.Cell) (a : Word) {k n : Nat} (h : k ≤ n) :
    (bytesAt m a n).take k = bytesAt m a k := by
  rw [bytesAt, ← List.map_take, List.take_range, Nat.min_eq_left h, bytesAt]

/-! ### Runs -/

theorem txSteps_succ {s t : State} (h : exec (decodeTx (txCode s.tx.state)) s = .next t) (k : Nat) :
    txSteps (k + 1) s = txSteps k t := by
  rw [txSteps, h]

theorem txSteps_add {a : Nat} {s t : State} (h : txSteps a s = .next t) (b : Nat) :
    txSteps (a + b) s = txSteps b t := by
  induction a generalizing s with
  | zero =>
    obtain rfl := Host.Outcome.next.inj h
    rw [Nat.zero_add]
  | succ a ih =>
    rw [Nat.succ_add]
    cases run : exec (decodeTx (txCode s.tx.state)) s with
    | next u =>
      rw [txSteps_succ run] at h ⊢
      exact ih h
    | fault f | refused r =>
      rw [txSteps, run] at h
      cases h

/-- One more step at the end of a run. -/
theorem txSteps_snoc {a : Nat} {s t u : State} (h : txSteps a s = .next t)
    (last : exec (decodeTx (txCode t.tx.state)) t = .next u) : txSteps (a + 1) s = .next u := by
  rw [txSteps_add h, txSteps_succ last, txSteps]

/-! ### Staging a frame -/

/-- `s` is `u` with the first `s.tx.sent` bytes of its buffer staged, a whole number of words (R266). -/
structure Staging (u s : State) : Prop where
  frame : s = { u with
    tx := { u.tx with sent := s.tx.sent, left := s.tx.left, fifo := s.tx.fifo, state := s.tx.state }
    history := s.history
    draws := s.draws }
  words : s.tx.sent % 4 = 0
  staged : s.tx.sent ≤ s.tx.fifo.length
  bytes : s.tx.fifo.take s.tx.sent = bytesAt u.mem u.tx.buf s.tx.sent

theorem Staging.start {u : State} (fresh : u.tx.sent = 0) : Staging u u := by
  refine ⟨rfl, by rw [fresh], by rw [fresh]; exact Nat.zero_le _, ?_⟩
  rw [fresh]
  rfl

/-- The move to TRANSMIT stages nothing. -/
theorem Staging.toTransmit {u s : State} (h : Staging u s) :
    Staging u { s with tx := { s.tx with state := .transmit } } := by
  refine ⟨?_, h.words, h.staged, h.bytes⟩
  rw [h.frame]

theorem Staging.txDmaAddr {u s : State} (h : Staging u s) : txDmaAddr s = u.tx.buf + BitVec.ofNat 32 s.tx.sent := by
  rw [h.frame]
  rfl

theorem Staging.len {u s : State} (h : Staging u s) : s.tx.len = u.tx.len := by
  rw [h.frame]

theorem Staging.stage {u s : State} (h : Staging u s) : Staging u (txStage s) := by
  have sent : (txStage s).tx.sent = s.tx.sent + 4 := rfl
  have mem : s.mem = u.mem := by rw [h.frame]
  refine ⟨?_, ?_, ?_, ?_⟩
  · rw [h.frame]
    rfl
  · rw [sent, Nat.add_mod_right, h.words]
  · change s.tx.sent + 4 ≤ (fifoWrite s.tx.fifo s.tx.sent (wordBytes _) s.draws).length
    rw [fifoWrite_length, wordBytes_length]
    exact Nat.le_max_right _ _
  · rw [sent, take_txStage_fifo h.staged, h.bytes, h.txDmaAddr, mem, ← bytesAt_add]

/-- A READ_FIFO step with bytes left stages a word, where the buffer is aligned and the memory has no holes. -/
theorem Staging.step {u s : State} (h : Staging u s) (aligned : u.tx.buf.toNat % 4 = 0) (noHoles : u.cfg.memHoles = [])
    (left : s.tx.sent < u.tx.len.toNat) (state : s.tx.state = .readFifo) :
    exec (decodeTx (txCode s.tx.state)) s = .next (txStage s) := by
  have cfg : s.cfg = u.cfg := by rw [h.frame]
  rw [state]
  refine execTxReadFifo_of_admitted (h.len ▸ left) ?_ (admitsWord_of_no_holes (cfg ▸ noHoles) _)
  rw [h.txDmaAddr]
  exact aligned4_add h.words aligned

/-- The words of a frame before its last are staged one a step. -/
theorem stage_words {u : State} (fresh : u.tx.sent = 0) (state : u.tx.state = .readFifo)
    (aligned : u.tx.buf.toNat % 4 = 0) (noHoles : u.cfg.memHoles = []) {j : Nat} (before : 4 * j < u.tx.len.toNat) :
    ∃ s, txSteps j u = .next s ∧ Staging u s ∧ s.tx.sent = 4 * j ∧ s.tx.state = .readFifo := by
  induction j with
  | zero => exact ⟨u, rfl, .start fresh, fresh, state⟩
  | succ j ih =>
    obtain ⟨s, run, staging, sent, reading⟩ := ih (by omega)
    refine ⟨txStage s, txSteps_snoc run (staging.step aligned noHoles (by omega) reading), staging.stage, ?_, ?_⟩
    · change s.tx.sent + 4 = _
      omega
    · refine (if_neg fun last => ?_).trans reading
      have := last.1
      rw [staging.len] at this
      omega

theorem readFifoSteps_zero (cfg : Config) : readFifoSteps cfg 0 = 1 := by
  simp [readFifoSteps, wordsOf]

theorem readFifoSteps_of_pos (cfg : Config) {n : Nat} (h : 0 < n) :
    readFifoSteps cfg n = (n - 1) / 4 + 1 + if cfg.readFifoExtraTick = true then 1 else 0 := by
  have words : max 1 (wordsOf n) = (n - 1) / 4 + 1 := by
    rw [wordsOf]
    omega
  rw [readFifoSteps, words]
  simp [h]

/-- The READ_FIFO steps of R464 stage the whole frame and end in TRANSMIT. -/
theorem stage_frame {u : State} (fresh : u.tx.sent = 0) (state : u.tx.state = .readFifo)
    (aligned : u.tx.buf.toNat % 4 = 0) (noHoles : u.cfg.memHoles = []) :
    ∃ t, txSteps (readFifoSteps u.cfg u.tx.len.toNat) u = .next t ∧ Staging u t ∧ u.tx.len.toNat ≤ t.tx.sent ∧
      t.tx.state = .transmit := by
  have finish {s : State} (staging : Staging u s) (reading : s.tx.state = .readFifo)
      (all : u.tx.len.toNat ≤ s.tx.sent) :
      exec (decodeTx (txCode s.tx.state)) s = .next { s with tx := { s.tx with state := .transmit } } := by
    rw [reading]
    exact execTxReadFifo_of_nothing_left (staging.len ▸ all)
  obtain empty | nonempty := Nat.eq_zero_or_pos u.tx.len.toNat
  · rw [empty, readFifoSteps_zero]
    have staging := Staging.start fresh
    exact ⟨_, txSteps_snoc rfl (finish staging state (empty ▸ Nat.zero_le _)), staging.toTransmit, Nat.zero_le _, rfl⟩
  · rw [readFifoSteps_of_pos u.cfg nonempty]
    obtain ⟨s, run, staging, sent, reading⟩ :=
      stage_words fresh state aligned noHoles (j := (u.tx.len.toNat - 1) / 4) (by omega)
    have run' := txSteps_snoc run (staging.step aligned noHoles (by omega) reading)
    have all : u.tx.len.toNat ≤ (txStage s).tx.sent := by
      change _ ≤ s.tx.sent + 4
      omega
    have cfg : s.cfg = u.cfg := by rw [staging.frame]
    have last : s.tx.len.toNat ≤ s.tx.sent + 4 := staging.len ▸ all
    cases extra : u.cfg.readFifoExtraTick with
    | false => exact ⟨_, run', staging.stage, all, if_pos ⟨last, by rw [cfg, extra]⟩⟩
    | true =>
      have reading' : (txStage s).tx.state = .readFifo :=
        (if_neg fun h => absurd h.2 (by simp [cfg, extra])).trans reading
      exact ⟨_, txSteps_snoc run' (finish staging.stage reading' all), staging.stage.toTransmit, all, rfl⟩

/-- The state after the WAIT_BD step that takes the ready descriptor `w0, w1` (R262). -/
def txTaken (w0 w1 : Word) (s : State) : State :=
  { s with tx := txTake w0 w1 s, txs := loggedTxs (bdLen w0).toNat s }

/-- From a ready descriptor to TRANSMIT, with the frame to be handed over. -/
theorem txSteps_to_transmit {s : State} {w0 w1 : Word} (waiting : s.tx.state = .waitBd)
    (found : DescriptorAt s s.tx.idx w0 w1) (ready : bdReady w0 = true) (aligned : w1.toNat % 4 = 0)
    (noHoles : s.cfg.memHoles = []) :
    ∃ t, txSteps (1 + readFifoSteps s.cfg (bdLen w0).toNat) s = .next t ∧ Staging (txTaken w0 w1 s) t ∧
      t.tx.state = .transmit ∧ txFrame t = bytesAt s.mem w1 (bdLen w0).toNat := by
  have take : txSteps 1 s = .next (txTaken w0 w1 s) := by
    refine txSteps_snoc rfl ?_
    rw [waiting]
    exact execTxWaitBd_of_ready found ready
  obtain ⟨t, run, staging, all, state⟩ := stage_frame (u := txTaken w0 w1 s) rfl rfl aligned noHoles
  have len : t.tx.len = bdLen w0 := staging.len
  refine ⟨t, (txSteps_add take _).trans run, staging, state, ?_⟩
  have all : (bdLen w0).toNat ≤ t.tx.sent := all
  have bytes := congrArg (List.take (bdLen w0).toNat) staging.bytes
  rw [List.take_take, Nat.min_eq_left all, take_bytesAt _ _ all] at bytes
  rw [txFrame, len, fifoTake_of_staged t.draws (Nat.le_trans all staging.staged)]
  exact bytes

/-- Settles O23: the frame staged word by word is the buffer, and only the engine, the stream and the records moved. -/
theorem txFrameIsTheBufferInMemory : Obligations.TxFrameIsTheBufferInMemory := by
  unfold Obligations.TxFrameIsTheBufferInMemory
  intro s w0 w1 waiting found ready aligned noHoles
  rw [← bdLen_toNat]
  obtain ⟨t, run, staging, state, frame⟩ := txSteps_to_transmit waiting found ready aligned noHoles
  refine ⟨t, run, state, frame, ?_⟩
  rw [staging.frame]
  rfl

theorem clearedAt_sentDescriptor (w : Word) :
    ClearedAt [0, 1, 2, 3, 4, 5, 6, 7, 8, 15] w (txWriteBack true (clearTxErrors w)) := by
  intro k
  rw [clearedAt_txWriteBack_full, clearedAt_clearTxErrors, Bool.and_assoc]
  congr 1
  simp [Bool.and_assoc]

/-- Settles O24: the run to TRANSMIT and the step that hands the frame over and writes the descriptor back. -/
theorem txDescriptorIsSentAndWrittenBack : Obligations.TxDescriptorIsSentAndWrittenBack := by
  unfold Obligations.TxDescriptorIsSentAndWrittenBack
  intro s w0 w1 waiting found ready aligned noHoles file sink
  rw [← bdLen_toNat]
  obtain ⟨t, run, staging, state, frame⟩ := txSteps_to_transmit waiting found ready aligned noHoles
  have tFrame := staging.frame
  have bd : t.bd = s.bd := by rw [tFrame]; rfl
  have idx : t.tx.idx = s.tx.idx := by rw [tFrame]; rfl
  have inside : t.tx.idx.toNat < t.bd.length := by
    rw [idx, bd]
    exact (List.getElem?_eq_some_iff.1 found.1).1
  have snapshot : t.tx.bd = clearTxErrors w0 := by rw [tFrame]; rfl
  have regs : t.regs = s.regs := by rw [tFrame]; rfl
  have mem : t.mem = s.mem := by rw [tFrame]; rfl
  have cfg : t.cfg = s.cfg := by rw [tFrame]; rfl
  have txs : t.txs = s.txs ++ encLen s.cfg (bdLen w0).toNat := by
    rw [tFrame]
    exact if_pos ⟨file, sink⟩
  have accepted : sendAccepted t = true := by
    rw [sendAccepted_iff, Accepts, cfg]
    exact ⟨sink, by simp [file]⟩
  have sent : exec (decodeTx (txCode t.tx.state)) t = .next (txFinished true (handedOver (txFrame t) t)) := by
    rw [state, ← txComplete_of_accepted accepted]
    exact execTxTransmit_of_inside inside
  obtain ⟨written, others, -⟩ := txFinished_spec true (s := handedOver (txFrame t) t) inside
  refine ⟨_, txWriteBack true (clearTxErrors w0), txSteps_snoc run sent, ?_, ?_, clearedAt_sentDescriptor w0, ?_, ?_, rfl,
    mem⟩
  · rw [← frame, ← txs]
    exact if_pos (by rw [cfg]; exact file)
  · rw [← snapshot, ← idx]
    exact written
  · rw [← idx, ← bd]
    exact others
  · rw [← regs]
    exact (signalled_regs .txb true t).1

end Sys2Proof.Claims

/-! SUPPORT. What each step of the receive engine leaves, the record length on the stream, and the obligations about one
of its steps (R302 to R310, R352, R357 to R359, R365). -/

namespace Sys2Proof.Machine

/-! ### The cursors -/

theorem advanced_advanced (src : RxSource) (a b : Nat) (s : State) :
    advanced src b (advanced src a s) = advanced src (a + b) s := by
  cases src <;> simp [advanced, Nat.add_assoc]

theorem sourceCursor_advanced (src : RxSource) (n : Nat) (s : State) :
    sourceCursor src (advanced src n s) = sourceCursor src s + n := by
  rw [← advanceCursor_eq, sourceCursor_advanceCursor_same]

theorem sourceBytes_advanced (src : RxSource) (n : Nat) (s : State) :
    sourceBytes src (advanced src n s) = sourceBytes src s := by
  cases src <;> rfl

/-- The cursor of the source not read stays. -/
theorem advanced_other_cursor (src : RxSource) (n : Nat) (s : State) :
    (src = .rxFile → (advanced src n s).lbOff = s.lbOff) ∧ (src = .loopback → (advanced src n s).rxOff = s.rxOff) := by
  constructor <;> rintro rfl <;> rfl

/-! ### Captured frames -/

theorem take_rxCapture_fifo (p : Frame) (s : State) : (rxCapture p s).rx.fifo.take p.length = p := by
  have staged := take_fifoWrite p s.draws (Nat.zero_le s.rx.fifo.length)
  rwa [Nat.zero_add, List.take_zero, List.nil_append] at staged

theorem execRxRecvSocket_of_pending {s : State} {f : Frame} {q : List Frame} (pending : s.sockq = f :: q)
    (nonempty : f ≠ []) :
    exec .rxRecvSocket s =
      if s.cfg.maxFrame < f.length then raise (.frameTooLarge .rx f.length)
      else if rxAccepts f s = true then .next (drawn (rxCapture f { s with sockq := q }))
      else .next (drawn { s with sockq := q }) := by
  rw [exec_rxRecvSocket, execRxRecvSocket, sockRecv, pending]
  dsimp only
  rw [if_neg (mt List.length_eq_zero_iff.1 nonempty)]
  rfl

/-! ### The station address -/

/-- Two bytes in a row are a half word exactly where each is its own byte of it. -/
theorem append_eq_low_half_iff {a b : Byte} {x : Word} :
    a ++ b = x.extractLsb' 0 16 ↔ a = x.extractLsb' 8 8 ∧ b = x.extractLsb' 0 8 := by
  have := a.isLt
  have := b.isLt
  rw [← BitVec.toNat_inj, BitVec.toNat_append, ← Nat.shiftLeft_add_eq_or_of_lt b.isLt]
  simp only [← BitVec.toNat_inj, BitVec.extractLsb'_toNat, Nat.shiftLeft_eq, Nat.shiftRight_eq_div_pow, Nat.pow_zero,
    Nat.div_one]
  omega

theorem wordOfBytes_eq_iff {b0 b1 b2 b3 : Byte} {x : Word} :
    wordOfBytes b0 b1 b2 b3 = x ↔ [b0, b1, b2, b3] = wordBytes x := by
  constructor
  · rintro rfl
    exact (wordBytes_wordOfBytes b0 b1 b2 b3).symm
  · intro h
    simp only [wordBytes, List.cons.injEq, and_true] at h
    obtain ⟨rfl, rfl, rfl, rfl⟩ := h
    exact wordOfBytes_wordBytes x

/-- Six bytes are the station address as the two registers hold it (R50, R51). -/
theorem eq_macBytes_iff {b0 b1 b2 b3 b4 b5 : Byte} {regs : RegFile} :
    [b0, b1, b2, b3, b4, b5] = macBytes regs ↔
      b0 ++ b1 = regs.macAddr1.extractLsb' 0 16 ∧ b2 ++ b3 ++ b4 ++ b5 = regs.macAddr0 := by
  have word : b2 ++ b3 ++ b4 ++ b5 = regs.macAddr0 ↔ [b2, b3, b4, b5] = wordBytes regs.macAddr0 := wordOfBytes_eq_iff
  rw [append_eq_low_half_iff, word]
  simp only [macBytes, wordBytes, List.cons.injEq, and_true, and_assoc]

/-! ### WRITE_FIFO -/

theorem execRxWriteFifo_of_stuck {s : State} (aligned : aligned4 (rxDmaAddr s) = true)
    (refused : admitsWord s.cfg (rxDmaAddr s) = false) : exec .rxWriteFifo s = .next s :=
  dmaStep_refused aligned refused

theorem execRxWriteFifo_of_more {s : State} (aligned : aligned4 (rxDmaAddr s) = true)
    (admitted : admitsWord s.cfg (rxDmaAddr s) = true) (more : s.rx.done + 4 < s.rx.len) :
    exec .rxWriteFifo s = .next (rxStore s) := by
  have lastWord : ¬ rxLastWord s = true := by simp [rxLastWord, more]
  rw [exec_rxWriteFifo, execRxWriteFifo, dmaStep_admitted aligned admitted, if_neg lastWord]

theorem execRxWriteFifo_of_outside {s : State} (aligned : aligned4 (rxDmaAddr s) = true)
    (admitted : admitsWord s.cfg (rxDmaAddr s) = true) (last : s.rx.len ≤ s.rx.done + 4)
    (outside : s.bd.length ≤ s.rx.idx.toNat) :
    exec .rxWriteFifo s = .fault (.raised (.bdIndexOutOfRange .rx s.rx.idx.toNat)) := by
  have lastWord : rxLastWord s = true := decide_eq_true last
  rw [exec_rxWriteFifo, execRxWriteFifo, dmaStep_admitted aligned admitted, if_pos lastWord,
    if_neg (Nat.not_lt.2 outside)]
  rfl

theorem wordBytes_rxDmaWord (s : State) :
    wordBytes (rxDmaWord s) =
      [rxByte s s.rx.done, rxByte s (s.rx.done + 1), rxByte s (s.rx.done + 2), rxByte s (s.rx.done + 3)] :=
  wordBytes_wordOfBytes _ _ _ _

theorem rxByte_of_staged {s : State} {k : Nat} (inFrame : k < s.rx.len) (staged : s.rx.len ≤ s.rx.fifo.length) :
    rxByte s k = s.rx.fifo[k] := by
  rw [rxByte, if_pos inFrame]
  exact List.getD_eq_getElem _ _ _

/-- The bytes of the word stored that are the frame's, in order (R308). -/
theorem take_wordBytes_rxDmaWord {s : State} {k : Nat} (hk : k ≤ 4) (inFrame : s.rx.done + k ≤ s.rx.len)
    (staged : s.rx.len ≤ s.rx.fifo.length) :
    (wordBytes (rxDmaWord s)).take k = (s.rx.fifo.drop s.rx.done).take k := by
  have word : wordBytes (rxDmaWord s) = (List.range 4).map fun j => rxByte s (s.rx.done + j) := wordBytes_rxDmaWord s
  apply List.ext_getElem
  · simp only [List.length_take, List.length_drop, wordBytes_length]
    omega
  · intro j hj _
    have hj : j < k := by
      rw [List.length_take] at hj
      omega
    simp only [word, List.getElem_take, List.getElem_map, List.getElem_range, List.getElem_drop]
    exact rxByte_of_staged (by omega) staged

/-! ### The write-back -/

/-- LEN is the frame's length, RD is cleared (R310). -/
theorem rxWriteBack_len (s : State) : (rxWriteBack s).toNat / 2 ^ 16 = s.rx.len % 2 ^ 16 := by
  have top : bdLen (rxWriteBack s) = bdLen (setBdLen s.rx.bd s.rx.len) := by
    refine bdLen_eq_of_top fun k hk => ?_
    rw [getLsbD_rxWriteBack_eq]
    simp [show 15 ≠ k by omega, show 2 ≠ k by omega, show 3 ≠ k by omega]
  rw [← bdLen_toNat, top, bdLen_setBdLen]

/-- SF is set on a frame below the minimum length, and no flag is cleared (R310). -/
theorem rxWriteBack_tooShort (s : State) :
    (rxWriteBack s).getLsbD 2 = (s.rx.bd.getLsbD 2 || decide (s.rx.len < s.regs.packetLen.toNat / 2 ^ 16)) := by
  rw [getLsbD_rxWriteBack_eq, getLsbD_setBdLen _ _ (by decide), minFl_toNat]
  simp

/-- TL is set on a frame above the maximum length, and no flag is cleared (R310). -/
theorem rxWriteBack_tooBig (s : State) :
    (rxWriteBack s).getLsbD 3 = (s.rx.bd.getLsbD 3 || decide (s.regs.packetLen.toNat % 2 ^ 16 < s.rx.len)) := by
  rw [getLsbD_rxWriteBack_eq, getLsbD_setBdLen _ _ (by decide), maxFl_toNat]
  simp

/-! ### The record length -/

/-- The bytes of a number, least significant first, give back its value modulo their range. -/
theorem natOfLow_bytes (k n : Nat) :
    natOfLow ((List.range k).map fun j => BitVec.ofNat 8 (n / 256 ^ j)) = n % 256 ^ k := by
  induction k generalizing n with
  | zero => rw [Nat.pow_zero, Nat.mod_one]; rfl
  | succ k ih =>
    have shifted : (fun j => BitVec.ofNat 8 (n / 256 ^ j)) ∘ Nat.succ = fun j => BitVec.ofNat 8 (n / 256 / 256 ^ j) := by
      funext j
      rw [Function.comp, Nat.pow_succ', Nat.div_div_eq_div_mul]
    rw [List.range_succ_eq_map, List.map_cons, List.map_map, shifted, natOfLow, List.foldr_cons]
    change (BitVec.ofNat 8 (n / 256 ^ 0)).toNat + 256 * natOfLow _ = _
    have split : n % 256 ^ (k + 1) = n % 256 + 256 * (n / 256 % 256 ^ k) := by rw [Nat.pow_succ', Nat.mod_mul]
    rw [ih, split, BitVec.toNat_ofNat, Nat.pow_zero, Nat.div_one]

theorem encLen_of_little {cfg : Config} {n : Nat} (fits : n < 256 ^ cfg.lenFieldBytes) (h : cfg.hostEndian = .little) :
    encLen cfg n = (List.range cfg.lenFieldBytes).map fun j => BitVec.ofNat 8 (n / 256 ^ j) := by
  rw [encLen, if_pos fits, h]

theorem encLen_of_big {cfg : Config} {n : Nat} (fits : n < 256 ^ cfg.lenFieldBytes) (h : cfg.hostEndian = .big) :
    encLen cfg n = ((List.range cfg.lenFieldBytes).map fun j => BitVec.ofNat 8 (n / 256 ^ j)).reverse := by
  rw [encLen, if_pos fits, h]

theorem decLen_encLen {cfg : Config} {n : Nat} (fits : n < 256 ^ cfg.lenFieldBytes) : decLen cfg (encLen cfg n) = n := by
  cases h : cfg.hostEndian with
  | little => rw [encLen_of_little fits h, decLen, h, natOfLow_bytes, Nat.mod_eq_of_lt fits]
  | big => rw [encLen_of_big fits h, decLen, h, List.reverse_reverse, natOfLow_bytes, Nat.mod_eq_of_lt fits]

end Sys2Proof.Machine

namespace Sys2Proof.Claims

open Sys2Proof.Machine

/-! ### WAIT_BD -/

theorem execRxWaitBd_of_descriptor {s : State} {w0 w1 : Word} (h : DescriptorAt s s.rx.idx w0 w1) :
    exec .rxWaitBd s = .next (rxSnapshot w0 w1 s) :=
  execRxWaitBd_of_ok (bdReadPair_ok.2 h)

theorem clearedAt_clearRxErrors (w : Word) : ClearedAt [0, 1, 2, 3, 4, 5, 6, 7] w (clearRxErrors w) :=
  clearedAt_of_mask w (by decide)

/-- Settles O25: the snapshot of an empty descriptor, with the source by LOOPBCK. -/
theorem rxWaitBdTakesReadyDescriptor : Obligations.RxWaitBdTakesReadyDescriptor := by
  unfold Obligations.RxWaitBdTakesReadyDescriptor
  intro s w0 w1 found ready
  refine ⟨_, execRxWaitBd_of_descriptor found, ?_⟩
  rw [rxSnapshot_of_ready w1 s ready]
  refine ⟨rfl, rfl, clearedAt_clearRxErrors w0, fun loopback => if_pos loopback, fun file => ?_, rfl⟩
  exact if_neg (by rw [moderLoopbck, file]; decide)

/-- Settles O26: the three snapshots of a descriptor that is not ready. -/
theorem rxWaitBdWithoutReadyDescriptor : Obligations.RxWaitBdWithoutReadyDescriptor := by
  unfold Obligations.RxWaitBdWithoutReadyDescriptor
  intro s w0 w1 found notReady
  rw [execRxWaitBd_of_descriptor found]
  refine ⟨fun inactive => ?_, fun active none => ?_, fun f q active socket pending => ?_⟩
  · rw [rxSnapshot_of_inactive w1 notReady inactive]
  · rw [rxSnapshot_of_no_frame w1 notReady active none]
  · obtain ⟨asserted, silent⟩ := signalled_line (P := s.regs.intMask.getLsbD 4 = true) .busy s (line := maskedIn .busy s)
      Iff.rfl
    obtain ⟨source, registers⟩ := signalled_regs .busy true s
    rw [rxSnapshot_of_pending w1 notReady active socket pending]
    exact ⟨_, rfl, rfl, source, registers, asserted, fun masked => silent (by rw [masked]; decide), rfl⟩

/-! ### RECV of a record -/

/-- A read at the cursor takes from what is unread. -/
theorem takeAt_eq_take_unread (src : RxSource) (k : Nat) (s : State) :
    takeAt (sourceBytes src s) (sourceCursor src s) k = (unread src s).take k := rfl

theorem unread_advanced (src : RxSource) (n : Nat) (s : State) :
    unread src (advanced src n s) = (unread src s).drop n := by
  rw [unread, unread, sourceBytes_advanced, sourceCursor_advanced, List.drop_drop]

/-- The length read short (R357). -/
theorem rxFileReadLen_of_short {src : RxSource} {s : State} (short : (unread src s).length < s.cfg.lenFieldBytes) :
    rxFileReadLen src s = (none, advanced src (unread src s).length s) := by
  have all : (unread src s).take s.cfg.lenFieldBytes = unread src s := List.take_of_length_le (Nat.le_of_lt short)
  rw [rxFileReadLen, takeAt_eq_take_unread, all, advanceCursor_eq, if_neg (Nat.ne_of_lt short)]

/-- The length read whole (R357). -/
theorem rxFileReadLen_of_whole {src : RxSource} {s : State} (whole : s.cfg.lenFieldBytes ≤ (unread src s).length) :
    rxFileReadLen src s =
      (some (decLen s.cfg ((unread src s).take s.cfg.lenFieldBytes)), advanced src s.cfg.lenFieldBytes s) := by
  have length : ((unread src s).take s.cfg.lenFieldBytes).length = s.cfg.lenFieldBytes := by
    rw [List.length_take, Nat.min_eq_left whole]
  rw [rxFileReadLen, takeAt_eq_take_unread, advanceCursor_eq, if_pos length, length]

/-- A RECV step whose length was read whole, in the cases of R306. -/
theorem execRxRecvFile_of_whole {s : State} {n : Nat} (whole : s.cfg.lenFieldBytes ≤ (unread s.rx.src s).length)
    (hn : n = decLen s.cfg ((unread s.rx.src s).take s.cfg.lenFieldBytes)) :
    exec .rxRecvFile s =
      if n < s.cfg.minHdrLen then
        .next { advanced s.rx.src (s.cfg.lenFieldBytes + n) s with rx := { s.rx with state := .waitBd } }
      else if s.cfg.maxFrame < n then raise (.frameTooLarge .rx n)
      else if (((unread s.rx.src s).drop s.cfg.lenFieldBytes).take n).length < n then
        .next
          { advanced s.rx.src
              (s.cfg.lenFieldBytes + (((unread s.rx.src s).drop s.cfg.lenFieldBytes).take n).length) s with
            rx := { s.rx with error := true } }
      else
        .next
          (rxCapture (((unread s.rx.src s).drop s.cfg.lenFieldBytes).take n)
            (advanced s.rx.src
              (s.cfg.lenFieldBytes + (((unread s.rx.src s).drop s.cfg.lenFieldBytes).take n).length) s)) := by
  rw [exec_rxRecvFile, execRxRecvFile, rxFileReadLen_of_whole whole, ← hn]
  simp only [rxFileSkip, rxFileRead, takeAt_eq_take_unread, unread_advanced, advanceCursor_eq, advanced_advanced]
  rfl

/-- Settles O27: the cursor goes to the end of the source. -/
theorem recvFileAtEndOfStreamStops : Obligations.RecvFileAtEndOfStreamStops := by
  unfold Obligations.RecvFileAtEndOfStreamStops
  intro s short
  have run : exec .rxRecvFile s = .next (requestStop (advanced s.rx.src (unread s.rx.src s).length s)) := by
    rw [exec_rxRecvFile, execRxRecvFile, rxFileReadLen_of_short short]
  obtain ⟨file, loopback⟩ := advanced_other_cursor s.rx.src (unread s.rx.src s).length s
  exact ⟨_, run, rfl, rfl, sourceCursor_advanced s.rx.src _ s, file, loopback, rfl⟩

/-- Settles O28: the first case of `execRxRecvFile_of_whole`. -/
theorem recvFileSkipsRunts : Obligations.RecvFileSkipsRunts := by
  unfold Obligations.RecvFileSkipsRunts
  intro s n whole hn runt
  have run := execRxRecvFile_of_whole whole hn
  rw [if_pos runt] at run
  obtain ⟨file, loopback⟩ := advanced_other_cursor s.rx.src (s.cfg.lenFieldBytes + n) s
  refine ⟨_, run, rfl, ?_, file, loopback, rfl⟩
  rw [Nat.add_assoc]
  exact sourceCursor_advanced s.rx.src _ s

/-- Settles O29: the payload is what is unread behind the length, whole or cut at the end of the source. -/
theorem recvFileCapturesTheRecord : Obligations.RecvFileCapturesTheRecord := by
  unfold Obligations.RecvFileCapturesTheRecord
  intro s n whole hn notRunt notGiant
  have run := execRxRecvFile_of_whole whole hn
  rw [if_neg (Nat.not_lt.2 notRunt), if_neg (Nat.not_lt.2 notGiant)] at run
  have length : (((unread s.rx.src s).drop s.cfg.lenFieldBytes).take n).length =
      min n ((unread s.rx.src s).length - s.cfg.lenFieldBytes) := by
    rw [List.length_take, List.length_drop]
  generalize hp : ((unread s.rx.src s).drop s.cfg.lenFieldBytes).take n = p at run length
  obtain ⟨file, loopback⟩ := advanced_other_cursor s.rx.src (s.cfg.lenFieldBytes + p.length) s
  have cursor := sourceCursor_advanced s.rx.src (s.cfg.lenFieldBytes + p.length) s
  by_cases cut : p.length < n
  · rw [if_pos cut] at run
    refine ⟨_, run, fun enough => absurd cut (by omega), fun _ => ⟨rfl, ?_⟩, rfl, rfl, rfl, rfl, file, loopback, rfl⟩
    refine Eq.trans cursor ?_
    omega
  · rw [if_neg cut] at run
    have all : p.length = n := by omega
    refine ⟨_, run, fun _ => ⟨rfl, all, rfl, rfl, ?_, ?_⟩, fun short => absurd short (by omega), rfl, rfl, rfl, rfl, file,
      loopback, rfl⟩
    · rw [← all]
      exact take_rxCapture_fifo p _
    · rw [Nat.add_assoc, ← all]
      exact cursor

/-- Settles O30: the second case of a record, and the first of a frame at the socket. -/
theorem frameAboveMaxFrameFaults : Obligations.FrameAboveMaxFrameFaults := by
  unfold Obligations.FrameAboveMaxFrameFaults
  refine fun s => ⟨fun n whole hn notRunt giant => ?_, fun f q pending nonempty giant => ?_⟩
  · rw [execRxRecvFile_of_whole whole hn, if_neg (Nat.not_lt.2 notRunt), if_pos giant]
    rfl
  · rw [execRxRecvSocket_of_pending pending nonempty, if_pos giant]
    rfl

/-! ### RECV from the socket -/

/-- A frame at the socket that is not too large is captured where the filter accepts it, and otherwise discarded. -/
theorem execRxRecvSocket_of_bounded {s : State} {f : Frame} {q : List Frame} (pending : s.sockq = f :: q)
    (nonempty : f ≠ []) (bounded : f.length ≤ s.cfg.maxFrame) :
    (rxAccepts f s = true → exec .rxRecvSocket s = .next (drawn (rxCapture f { s with sockq := q }))) ∧
      (rxAccepts f s = false → exec .rxRecvSocket s = .next (drawn { s with sockq := q })) := by
  rw [execRxRecvSocket_of_pending pending nonempty, if_neg (Nat.not_lt.2 bounded)]
  exact ⟨fun accepted => if_pos accepted, fun rejected => if_neg (by simp [rejected])⟩

/-- The filter on a frame that holds an address (R307). -/
theorem rxAccepts_iff {f : Frame} {s : State} (h : 6 ≤ f.length) :
    rxAccepts f s = true ↔
      s.regs.moder.getLsbD 5 = true ∨
        ∃ b0 b1 b2 b3 b4 b5 : Byte, ∃ rest : List Byte, f = b0 :: b1 :: b2 :: b3 :: b4 :: b5 :: rest ∧
          b0 ++ b1 = s.regs.macAddr1.extractLsb' 0 16 ∧ b2 ++ b3 ++ b4 ++ b5 = s.regs.macAddr0 := by
  have filter : rxAccepts f s = true ↔ s.regs.moder.getLsbD 5 = true ∨ f.take 6 = macBytes s.regs := by
    rw [rxAccepts, if_neg (Nat.not_lt.2 h)]
    by_cases promiscuous : moderPro s.regs.moder = true
    · rw [if_pos promiscuous]
      exact ⟨fun _ => .inl promiscuous, fun _ => rfl⟩
    · rw [if_neg promiscuous, beq_iff_eq]
      exact ⟨.inr, fun h => h.resolve_left promiscuous⟩
  rw [filter]
  refine or_congr_right ⟨fun address => ?_, ?_⟩
  · obtain ⟨b0, b1, b2, b3, b4, b5, rest, rfl⟩ : ∃ b0 b1 b2 b3 b4 b5 : Byte, ∃ rest : List Byte,
        f = b0 :: b1 :: b2 :: b3 :: b4 :: b5 :: rest := by
      match f, h with
      | b0 :: b1 :: b2 :: b3 :: b4 :: b5 :: rest, _ => exact ⟨b0, b1, b2, b3, b4, b5, rest, rfl⟩
    exact ⟨b0, b1, b2, b3, b4, b5, rest, rfl, eq_macBytes_iff.1 address⟩
  · rintro ⟨b0, b1, b2, b3, b4, b5, rest, rfl, address⟩
    exact eq_macBytes_iff.2 address

/-- Settles O31: the filter on a frame that holds an address, both ways. -/
theorem recvSocketFiltersByAddress : Obligations.RecvSocketFiltersByAddress := by
  unfold Obligations.RecvSocketFiltersByAddress
  intro s f q pending sixBytes bounded
  have nonempty : f ≠ [] := by
    rintro rfl
    exact absurd sixBytes (by decide)
  obtain ⟨captured, discarded⟩ := execRxRecvSocket_of_bounded pending nonempty bounded
  rw [← rxAccepts_iff sixBytes]
  cases accepted : rxAccepts f s with
  | true => exact ⟨_, captured accepted, rfl, fun _ => ⟨rfl, rfl, rfl, take_rxCapture_fifo f _, rfl⟩,
      fun rejected => absurd rfl rejected, rfl⟩
  | false => exact ⟨_, discarded accepted, rfl, fun h => absurd h Bool.false_ne_true, fun _ => rfl, rfl⟩

/-- Settles O32: nothing pending, an empty frame, and a frame the filter decides on by a draw. -/
theorem recvSocketWithoutAnAddress : Obligations.RecvSocketWithoutAnAddress := by
  unfold Obligations.RecvSocketWithoutAnAddress
  refine fun s => ⟨fun none => ?_, fun q pending => ?_, fun f q pending nonempty _ bounded => ?_⟩
  · rw [exec_rxRecvSocket, execRxRecvSocket, sockRecv, none]
  · rw [exec_rxRecvSocket, execRxRecvSocket, sockRecv, pending]
    rfl
  · obtain ⟨captured, discarded⟩ := execRxRecvSocket_of_bounded pending nonempty bounded
    have staged := take_rxCapture_fifo f { s with sockq := q }
    cases accepted : rxAccepts f s with
    | true => exact ⟨_, captured accepted, rfl, .inr ⟨rfl, rfl, rfl, staged, rfl⟩, fun _ => ⟨rfl, rfl, rfl, staged⟩, rfl⟩
    | false =>
      refine ⟨_, discarded accepted, rfl, .inl rfl, fun promiscuous => ?_, rfl⟩
      have accepts : rxAccepts f s = true := if_pos promiscuous
      exact absurd (accepted.symm.trans accepts) Bool.false_ne_true

/-! ### WRITE_FIFO -/

/-- The four bytes at the address of a word stored are the word's (R102). -/
theorem bytesAt_writeWord {m : List Host.Cell} {a v : Word} (h : Memory.wf m = true) :
    bytesAt (Memory.writeWord m a v) a 4 = wordBytes v := by
  rw [← wordBytes_readWord, Memory.readWord_writeWord h]

/-- Settles O33: a word is stored, and nothing else moves. -/
theorem rxWriteFifoStoresOneWord : Obligations.RxWriteFifoStoresOneWord := by
  unfold Obligations.RxWriteFifoStoresOneWord
  intro s aligned
  have aligned' := (aligned4_iff _).2 aligned
  refine ⟨execRxWriteFifo_of_stuck aligned', fun hwf admitted more staged => ?_⟩
  have word : wordBytes (rxDmaWord s) = (s.rx.fifo.drop s.rx.done).take 4 :=
    take_wordBytes_rxDmaWord (Nat.le_refl 4) (Nat.le_of_lt more) staged
  exact ⟨_, execRxWriteFifo_of_more aligned' admitted more, rfl, (bytesAt_writeWord hwf).trans word,
    fun x hx => read_writeWord_outside hwf hx, ⟨_, word, rfl⟩, rfl⟩

/-- The condition under which a completed reception asserts the line (R404). -/
theorem rxLine_iff (s : State) :
    (maskedIn .rxb s && bdIrq (rxWriteBack s)) = true ↔
      s.regs.intMask.getLsbD 2 = true ∧ s.rx.bd.getLsbD 14 = true := by
  have irq : bdIrq (rxWriteBack s) = s.rx.bd.getLsbD 14 :=
    getLsbD_rxWriteBack s (by decide) (by decide) (by decide)
  rw [Bool.and_eq_true_iff, irq]
  rfl

theorem rxFinished_idx (s : State) :
    (rxFinished s).rx.idx =
      if s.rx.bd.getLsbD 13 = true ∨ s.cfg.wrapLimit ≤ s.rx.idx.toNat then 2 * s.regs.txBdNum else s.rx.idx + 2 := by
  rw [← completeRx_eq, completeRx_idx, nextRx]

/-- The step that stores a frame's last word, with the end of the frame as one update. -/
theorem execRxWriteFifo_finishes {s : State} (aligned : aligned4 (rxDmaAddr s) = true)
    (admitted : admitsWord s.cfg (rxDmaAddr s) = true) (last : s.rx.len ≤ s.rx.done + 4)
    (inside : s.rx.idx.toNat < s.bd.length) : exec .rxWriteFifo s = .next (rxFinished (rxStore s)) := by
  rw [execRxWriteFifo_of_last aligned admitted last inside, completeRx_eq]

/-- Settles O34: the last word is stored, and the rest is the end of a received frame. -/
theorem rxWriteFifoCompletesTheFrame : Obligations.RxWriteFifoCompletesTheFrame := by
  unfold Obligations.RxWriteFifoCompletesTheFrame
  intro s hwf aligned admitted more last staged inside
  have bytes : bytesAt (rxStore s).mem (rxDmaAddr s) 4 = wordBytes (rxDmaWord s) := bytesAt_writeWord hwf
  obtain ⟨asserted, silent⟩ := signalled_line .rxb (rxStore s) (rxLine_iff (rxStore s))
  obtain ⟨source, registers⟩ := signalled_regs .rxb true s
  refine ⟨_, execRxWriteFifo_finishes ((aligned4_iff _).2 aligned) admitted last inside, ?_,
    fun x hx => read_writeWord_outside hwf hx, List.getElem?_set_self inside, fun j hj => List.getElem?_set_ne hj.symm,
    rxWriteBack_len (rxStore s), getLsbD_15_rxWriteBack (rxStore s), rxWriteBack_tooShort (rxStore s),
    rxWriteBack_tooBig (rxStore s), fun k hk => getLsbD_rxWriteBack (rxStore s) hk, source, registers, fun line => ?_,
    fun line => ?_, rxFinished_idx (rxStore s), rfl, rfl, rfl⟩
  · have four : s.rx.len - s.rx.done ≤ 4 := by omega
    change bytesAt (rxStore s).mem (rxDmaAddr s) (s.rx.len - s.rx.done) = _
    rw [← take_bytesAt _ _ four, bytes, take_wordBytes_rxDmaWord four (by omega) staged]
  · obtain ⟨irq, hist⟩ := asserted line
    exact ⟨irq, _, bytes.symm, hist.trans (List.append_assoc _ _ _)⟩
  · obtain ⟨irq, hist⟩ := silent line
    exact ⟨irq, _, bytes.symm, hist⟩

/-- Settles O35: the fault is raised in place of the store. -/
theorem rxCompletionOutsideTheRamFaults : Obligations.RxCompletionOutsideTheRamFaults := by
  unfold Obligations.RxCompletionOutsideTheRamFaults
  intro s aligned admitted last outside
  have faults := execRxWriteFifo_of_outside ((aligned4_iff _).2 aligned) admitted last outside
  refine ⟨faults, ?_⟩
  rw [faults]
  rfl

/-! ### The record length -/

theorem getElem?_bytes {k j : Nat} (n : Nat) (hj : j < k) :
    ((List.range k).map fun j => BitVec.ofNat 8 (n / 256 ^ j))[j]? = some (BitVec.ofNat 8 (n / 256 ^ j)) := by
  rw [List.getElem?_map, List.getElem?_range hj, Option.map_some]

/-- Settles O39: the bytes in either order, and their value. -/
theorem decInvertsEnc : Obligations.DecInvertsEnc := by
  unfold Obligations.DecInvertsEnc
  intro cfg n fits
  refine ⟨encLen_length cfg n, decLen_encLen fits, fun j hj => ⟨fun little => ?_, fun big => ?_⟩⟩
  · rw [encLen_of_little fits little, getElem?_bytes n hj]
  · have last : cfg.lenFieldBytes - 1 - (cfg.lenFieldBytes - 1 - j) = j := by omega
    rw [encLen_of_big fits big, List.getElem?_reverse (by rw [List.length_map, List.length_range]; omega),
      List.length_map, List.length_range, last, getElem?_bytes n hj]

end Sys2Proof.Claims

/-! SUPPORT. Runs of the receive engine: the words of a frame stored one by one, and the obligations that the frame
stands in memory and that a record is received (R306, R312, R313). -/

namespace Sys2Proof.Claims

open Sys2Proof.Machine

/-! ### Addresses and bytes -/

/-- None of `n + k` addresses is none of the first `n` and none of the `k` after them. -/
theorem Outside.split {a x : Word} {n k : Nat} (h : Outside a (n + k) x) :
    Outside a n x ∧ Outside (a + BitVec.ofNat 32 n) k x := by
  refine ⟨fun j hj => h j (by omega), fun j hj => ?_⟩
  rw [BitVec.add_assoc, ← BitVec.ofNat_add]
  exact h (n + j) (by omega)

/-- The addresses before the `n`-th are none of the four from there on, where nothing wraps. -/
theorem outside_word_after {a : Word} {n j : Nat} (hj : j < n) (hn : n + 4 ≤ 2 ^ 32) :
    Outside (a + BitVec.ofNat 32 n) 4 (a + BitVec.ofNat 32 j) := by
  intro k hk
  bv_omega

theorem bytesAt_congr {m m' : List Host.Cell} {a : Word} {n : Nat}
    (h : ∀ j < n, Memory.read m' (a + BitVec.ofNat 32 j).toNat = Memory.read m (a + BitVec.ofNat 32 j).toNat) :
    bytesAt m' a n = bytesAt m a n :=
  List.map_congr_left fun j hj => h j (List.mem_range.1 hj)

/-! ### Runs -/

theorem rxSteps_succ {s t : State} (h : exec (decodeRx s.cfg.backend (rxCode s.rx.state)) s = .next t) (k : Nat) :
    rxSteps (k + 1) s = rxSteps k t := by
  rw [rxSteps, h]

theorem rxSteps_add {a : Nat} {s t : State} (h : rxSteps a s = .next t) (b : Nat) :
    rxSteps (a + b) s = rxSteps b t := by
  induction a generalizing s with
  | zero =>
    obtain rfl := Host.Outcome.next.inj h
    rw [Nat.zero_add]
  | succ a ih =>
    rw [Nat.succ_add]
    cases run : exec (decodeRx s.cfg.backend (rxCode s.rx.state)) s with
    | next u =>
      rw [rxSteps_succ run] at h ⊢
      exact ih h
    | fault f | refused r =>
      rw [rxSteps, run] at h
      cases h

/-- One more step at the end of a run. -/
theorem rxSteps_snoc {a : Nat} {s t u : State} (h : rxSteps a s = .next t)
    (last : exec (decodeRx t.cfg.backend (rxCode t.rx.state)) t = .next u) : rxSteps (a + 1) s = .next u := by
  rw [rxSteps_add h, rxSteps_succ last, rxSteps]

/-! ### Storing a frame -/

/-- `s` is `u` with the first `s.rx.done` bytes of its frame stored at its buffer, a whole number of words (R308). -/
structure Storing (u s : State) : Prop where
  frame : s = { u with rx := { u.rx with done := s.rx.done }, mem := s.mem, history := s.history, draws := s.draws }
  words : s.rx.done % 4 = 0
  wf : Memory.wf s.mem = true
  bytes : bytesAt s.mem u.rx.buf (min s.rx.done u.rx.len) = u.rx.fifo.take (min s.rx.done u.rx.len)
  outside : ∀ x, Outside u.rx.buf s.rx.done x → Memory.read s.mem x.toNat = Memory.read u.mem x.toNat

theorem Storing.start {u : State} (hwf : Memory.wf u.mem = true) (fresh : u.rx.done = 0) : Storing u u := by
  refine ⟨rfl, by rw [fresh], hwf, ?_, fun _ _ => rfl⟩
  rw [fresh, Nat.zero_min]
  rfl

theorem Storing.rxDmaAddr {u s : State} (h : Storing u s) : rxDmaAddr s = u.rx.buf + BitVec.ofNat 32 s.rx.done := by
  rw [h.frame]
  rfl

/-- A step that stores a word adds its bytes of the frame and leaves those before them. -/
theorem Storing.store {u s : State} (h : Storing u s) (more : s.rx.done < u.rx.len)
    (staged : u.rx.len ≤ u.rx.fifo.length) (noWrap : s.rx.done + 4 ≤ 2 ^ 32) : Storing u (rxStore s) := by
  have addr := h.rxDmaAddr
  have len : s.rx.len = u.rx.len := by rw [h.frame]
  have fifo : s.rx.fifo = u.rx.fifo := by rw [h.frame]
  have mem : (rxStore s).mem = Memory.writeWord s.mem (Machine.rxDmaAddr s) (rxDmaWord s) := rfl
  have done : (rxStore s).rx.done = s.rx.done + 4 := rfl
  refine ⟨?_, ?_, Memory.writeWord_wf h.wf, ?_, fun x hx => ?_⟩
  · rw [h.frame]
    rfl
  · rw [done, Nat.add_mod_right, h.words]
  · have before : bytesAt (rxStore s).mem u.rx.buf s.rx.done = u.rx.fifo.take s.rx.done := by
      have old := h.bytes
      rw [Nat.min_eq_left (Nat.le_of_lt more)] at old
      rw [← old, mem, addr]
      exact bytesAt_congr fun j hj => read_writeWord_outside h.wf (outside_word_after hj noWrap)
    have count : min (s.rx.done + 4) u.rx.len = s.rx.done + min 4 (u.rx.len - s.rx.done) := by omega
    have word : bytesAt (rxStore s).mem (u.rx.buf + BitVec.ofNat 32 s.rx.done) (min 4 (u.rx.len - s.rx.done)) =
        (u.rx.fifo.drop s.rx.done).take (min 4 (u.rx.len - s.rx.done)) := by
      rw [← take_bytesAt _ _ (Nat.min_le_left _ _), mem, addr, bytesAt_writeWord h.wf,
        take_wordBytes_rxDmaWord (Nat.min_le_left _ _) (by omega) (by rw [len, fifo]; exact staged), fifo]
    rw [done, count, bytesAt_add, before, word, List.take_add]
  · obtain ⟨outside, outsideWord⟩ := (done ▸ hx).split
    rw [mem, addr, read_writeWord_outside h.wf outsideWord, h.outside x outside]

/-- What a frame at the start of WRITE_FIFO needs to be stored without a fault or a stuck step (R104, R111). -/
structure Storable (u : State) : Prop where
  state : u.rx.state = .writeFifo
  fresh : u.rx.done = 0
  noHoles : u.cfg.memHoles = []
  aligned : u.rx.buf.toNat % 4 = 0
  staged : u.rx.len ≤ u.rx.fifo.length
  bounded : u.rx.len ≤ 65535

theorem Storing.aligned {u s : State} (h : Storing u s) (storable : Storable u) :
    aligned4 (Machine.rxDmaAddr s) = true := by
  rw [h.rxDmaAddr]
  exact aligned4_add h.words storable.aligned

theorem Storing.admitted {u s : State} (h : Storing u s) (storable : Storable u) :
    admitsWord s.cfg (Machine.rxDmaAddr s) = true := by
  have cfg : s.cfg = u.cfg := by rw [h.frame]
  exact admitsWord_of_no_holes (cfg ▸ storable.noHoles) _

theorem Storing.op {u s : State} (h : Storing u s) (storable : Storable u) :
    decodeRx s.cfg.backend (rxCode s.rx.state) = .rxWriteFifo := by
  have state : s.rx.state = .writeFifo := by
    rw [h.frame]
    exact storable.state
  rw [state]
  rfl

/-- The words of a frame before its last are stored one a step. -/
theorem store_words {u : State} (storable : Storable u) (hwf : Memory.wf u.mem = true) {j : Nat}
    (before : 4 * j < u.rx.len) : ∃ s, rxSteps j u = .next s ∧ Storing u s ∧ s.rx.done = 4 * j := by
  have bounded := storable.bounded
  induction j with
  | zero => exact ⟨u, rfl, .start hwf storable.fresh, storable.fresh⟩
  | succ j ih =>
    obtain ⟨s, run, storing, done⟩ := ih (by omega)
    have len : s.rx.len = u.rx.len := by rw [storing.frame]
    refine ⟨rxStore s, rxSteps_snoc run ?_, storing.store (by omega) storable.staged (by omega), ?_⟩
    · rw [storing.op storable]
      exact execRxWriteFifo_of_more (storing.aligned storable) (storing.admitted storable) (by omega)
    · change s.rx.done + 4 = _
      omega

/-- After the DMA words of the frame it is stored whole, and its end is the last step's. -/
theorem store_frame {u : State} (storable : Storable u) (hwf : Memory.wf u.mem = true) (nonempty : 1 ≤ u.rx.len)
    (inside : u.rx.idx.toNat < u.bd.length) :
    ∃ s, rxSteps (wordsOf u.rx.len) u = .next (rxFinished s) ∧ Storing u s ∧ s.rx.done = 4 * wordsOf u.rx.len := by
  have bounded := storable.bounded
  have count : wordsOf u.rx.len = (u.rx.len - 1) / 4 + 1 := by
    rw [wordsOf]
    omega
  obtain ⟨s, run, storing, done⟩ := store_words storable hwf (j := (u.rx.len - 1) / 4) (by omega)
  have len : s.rx.len = u.rx.len := by rw [storing.frame]
  have inside' : s.rx.idx.toNat < s.bd.length := by
    rw [storing.frame]
    exact inside
  refine ⟨rxStore s, ?_, storing.store (by omega) storable.staged (by omega), ?_⟩
  · rw [count]
    refine rxSteps_snoc run ?_
    rw [storing.op storable]
    exact execRxWriteFifo_finishes (storing.aligned storable) (storing.admitted storable) (by omega) inside'
  · change s.rx.done + 4 = _
    omega

/-- A frame at the start of WRITE_FIFO is received: it stands in memory and its descriptor is written back. -/
theorem receive_frame {u : State} (storable : Storable u) (hwf : Memory.wf u.mem = true) (nonempty : 1 ≤ u.rx.len)
    (inside : u.rx.idx.toNat < u.bd.length) :
    ∃ t w, rxSteps (wordsOf u.rx.len) u = .next t ∧
      bytesAt t.mem u.rx.buf u.rx.len = u.rx.fifo.take u.rx.len ∧
      (∀ x, Outside u.rx.buf (4 * wordsOf u.rx.len) x → Memory.read t.mem x.toNat = Memory.read u.mem x.toNat) ∧
      t.bd[u.rx.idx.toNat]? = some w ∧ w.toNat / 2 ^ 16 = u.rx.len ∧ w.getLsbD 15 = false ∧
      (∀ j, j ≠ u.rx.idx.toNat → t.bd[j]? = u.bd[j]?) ∧
      SetAt 2 u.regs.intSource t.regs.intSource ∧ t.rx.state = .idle ∧ t.rxOff = u.rxOff := by
  obtain ⟨s, run, storing, done⟩ := store_frame storable hwf nonempty inside
  have bounded := storable.bounded
  have frame := storing.frame
  have len : s.rx.len = u.rx.len := by rw [frame]
  have idx : s.rx.idx = u.rx.idx := by rw [frame]
  have bd : s.bd = u.bd := by rw [frame]
  have regs : s.regs = u.regs := by rw [frame]
  have rxOff : s.rxOff = u.rxOff := by rw [frame]
  have whole : min s.rx.done u.rx.len = u.rx.len := by
    rw [done, wordsOf]
    omega
  refine ⟨_, rxWriteBack s, run, ?_, fun x hx => storing.outside x (done ▸ hx), ?_, ?_, getLsbD_15_rxWriteBack s, ?_, ?_,
    rfl, rxOff⟩
  · have bytes := storing.bytes
    rwa [whole] at bytes
  · rw [← idx]
    exact List.getElem?_set_self (by rw [idx, bd]; exact inside)
  · rw [rxWriteBack_len, len, Nat.mod_eq_of_lt (by omega)]
  · intro j hj
    rw [← bd]
    exact List.getElem?_set_ne (by rw [idx]; exact hj.symm)
  · rw [← regs]
    exact (signalled_regs .rxb true s).1

/-- Settles O37: the run that stores the frame word by word and ends it. -/
theorem receivedFrameStandsInMemory : Obligations.ReceivedFrameStandsInMemory := by
  unfold Obligations.ReceivedFrameStandsInMemory
  intro s hwf noHoles state fresh nonempty bounded staged aligned inside
  obtain ⟨t, w, run, bytes, outside, written, length, cleared, others, source, idle, -⟩ :=
    receive_frame ⟨state, fresh, noHoles, aligned, staged, bounded⟩ hwf nonempty inside
  exact ⟨t, w, run, bytes, outside, written, length, cleared, others, source, idle⟩

/-! ### A record, from IDLE -/

/-- The state in RECV after the IDLE step and the WAIT_BD step that takes the descriptor `w0, w1` (R301, R302). -/
def rxTaken (w0 w1 : Word) (s : State) : State := rxTake w0 w1 { s with rx := { s.rx with state := .waitBd } }

theorem rxSteps_to_recv {s : State} {w0 w1 : Word} (idle : s.rx.state = .idle) (found : DescriptorAt s s.rx.idx w0 w1)
    (ready : bdReady w0 = true) : rxSteps 2 s = .next (rxTaken w0 w1 s) := by
  have first : exec (decodeRx s.cfg.backend (rxCode s.rx.state)) s =
      .next { s with rx := { s.rx with state := .waitBd } } := by
    rw [idle]
    rfl
  have second : exec .rxWaitBd { s with rx := { s.rx with state := .waitBd } } = .next (rxTaken w0 w1 s) := by
    rw [execRxWaitBd_of_descriptor (s := { s with rx := { s.rx with state := .waitBd } }) found,
      rxSnapshot_of_ready w1 _ ready]
    rfl
  exact rxSteps_snoc (rxSteps_succ first 0) second

/-- A RECV step on a whole record captures its payload. -/
theorem execRxRecvFile_of_record {s : State} {p rest : List Byte}
    (record : unread s.rx.src s = encLen s.cfg p.length ++ p ++ rest) (fits : p.length < 256 ^ s.cfg.lenFieldBytes)
    (notRunt : s.cfg.minHdrLen ≤ p.length) (notGiant : p.length ≤ s.cfg.maxFrame) :
    exec .rxRecvFile s = .next (rxCapture p (advanced s.rx.src (s.cfg.lenFieldBytes + p.length) s)) := by
  have length := encLen_length s.cfg p.length
  have read : (unread s.rx.src s).take s.cfg.lenFieldBytes = encLen s.cfg p.length := by
    rw [record, List.append_assoc]
    exact List.take_left' length
  have payload : ((unread s.rx.src s).drop s.cfg.lenFieldBytes).take p.length = p := by
    rw [record, List.append_assoc, List.drop_left' length, List.take_left]
  have whole : s.cfg.lenFieldBytes ≤ (unread s.rx.src s).length := by
    rw [record, List.length_append, List.length_append, length]
    omega
  have run := execRxRecvFile_of_whole whole (n := p.length) (by rw [read, decLen_encLen fits])
  rwa [if_neg (Nat.not_lt.2 notRunt), if_neg (Nat.not_lt.2 notGiant), payload, if_neg (Nat.lt_irrefl _)] at run

/-- Settles O38: IDLE, WAIT_BD, RECV, and the run that stores the payload. -/
theorem fileRecordIsReceived : Obligations.FileRecordIsReceived := by
  unfold Obligations.FileRecordIsReceived
  intro s w0 w1 p rest hwf noHoles file available idle noLoopback found ready aligned record fits nonempty notRunt notGiant
    bounded
  have src : (rxTaken w0 w1 s).rx.src = .rxFile := if_neg (by rw [moderLoopbck, noLoopback]; decide)
  have unreadRecord : unread (rxTaken w0 w1 s).rx.src (rxTaken w0 w1 s) = encLen s.cfg p.length ++ p ++ rest := by
    rw [src, ← record, unread, sourceBytes]
    exact congrArg (List.drop s.rxOff) (if_pos available)
  have recv := execRxRecvFile_of_record unreadRecord fits notRunt notGiant
  rw [src] at recv
  have op : decodeRx (rxTaken w0 w1 s).cfg.backend (rxCode (rxTaken w0 w1 s).rx.state) = .rxRecvFile := by
    rw [show (rxTaken w0 w1 s).cfg.backend = .file from file]
    rfl
  have captured := rxSteps_snoc (rxSteps_to_recv idle found ready) ((congrArg (exec · _) op).trans recv)
  have staged : p.length ≤ (fifoWrite s.rx.fifo 0 p s.draws).length := by
    rw [fifoWrite_length]
    omega
  obtain ⟨t, w, run, bytes, -, written, length, cleared, -, -, idle', rxOff⟩ :=
    receive_frame (u := rxCapture p (advanced .rxFile (s.cfg.lenFieldBytes + p.length) (rxTaken w0 w1 s)))
      ⟨rfl, rfl, noHoles, aligned, staged, bounded⟩ hwf nonempty (List.getElem?_eq_some_iff.1 found.1).1
  refine ⟨t, w, (rxSteps_add captured _).trans run, bytes.trans (take_rxCapture_fifo p _), written, length, cleared, ?_,
    idle'⟩
  rw [rxOff, Nat.add_assoc]
  rfl

end Sys2Proof.Claims
